-- ==== Sys2Proof/Word.lean ====
section
/-! DEFINITION. The widths of CORE: a 64-bit register, an 8-bit opcode, a 7-bit window offset (spec/00_scope.md R5,
spec/10_state.md R16, spec/20_memory.md R33). -/

namespace Sys2Proof

/-- A register, a bus data word or a command word: 64 bits, bit 0 least significant (R5, R12). -/
abbrev Word := BitVec 64

/-- The opcode byte, CMD[7:0] (R16, R52). -/
abbrev Op := BitVec 8

/-- A byte offset in the register window, req_addr[6:0] (R33, R36). -/
abbrev Offset := BitVec 7

end Sys2Proof
end

