-- ==== Sys2Proof/Config.lean ====
section
/-! DEFINITION. The implementation parameters of spec/00_scope.md section 2, the parameters the spec leaves OPEN, and
the free values. A constant declared `opaque` has no body: no proof can use a value of it. -/

namespace Sys2Proof.Config

/-- INT64_MIN (R6). -/
def int64Min : Int := -9223372036854775808

/-- INT64_MAX (R6). -/
def int64Max : Int := 9223372036854775807

/-- MAX_MOD, the largest modulus of a multiply-based command (R7). -/
def maxMod : Int := 3037000500

/-- WINDOW, the size of the register window in bytes (R36). -/
def window : Nat := 0x80

/-- The constant the ID register reads as: "CORE" and version 1 (R15). -/
def idValue : Word := 0x434F524500000001#64

/-- The OPEN parameter BASE, counted in windows: BASE must be a multiple of 0x80 (R37, spec/93 S1). Log 11. -/
opaque baseBlock : Nat

/-- BASE, the platform address of the window (R37). -/
def base : Nat := window * baseBlock

/-- The OPEN parameter PLATFORM_BYTE_ORDER: which byte of a register's 8 platform bytes holds bits [8k+7:8k] (R44,
spec/93 S2). CORE itself has no byte lanes. Log 12. -/
opaque platformByteOrder : Equiv.Perm (Fin 8)

/-- The free values: the n-th 64-bit value that the spec leaves unspecified. Read with the counter
`State.freeCount`. Log 8. -/
opaque freeWord : Nat → Word

/-- The bound K of the reduction unit's quotient estimate, fixed by the implementation and not given (R70, spec/93 S7).
Log 9. -/
opaque reductionSlack : Nat

end Sys2Proof.Config
end

