-- ==== Sys2Proof/Machine/Arith.lean ====
section
/-! DEFINITION. The integer functions of spec/00_scope.md R8 to R10, over unbounded integers (R11). -/

namespace Sys2Proof.Machine

/-- `mod_floor(a, m)` for m >= 1: the r with 0 <= r < m such that m divides a - r (R8). -/
def modFloor (a m : Int) : Int := a % m

/-- `div_floor(a, m)` for m >= 1 (R8). -/
def divFloor (a m : Int) : Int := a / m

/-- `mulmod(a, b, m)`, the multiply-and-reduce on operands already in [0, m) (R9). -/
def mulmod (a b m : Int) : Int := modFloor (a * b) m

end Sys2Proof.Machine
end

