-- ==== Sys2Proof/Syntax.lean ====
section
/-! DEFINITION. The commands of CORE: one constructor per row of spec/opcode_table.json (spec/30_encoding.md R53). A
command word has no operand fields: the operands are the four operand registers, latched at acceptance (R52, R54). -/

namespace Sys2Proof

/-- The five commands of CORE (R2, R53). -/
inductive Instr where
  /-- MODEXP, 0x01, format F3 (R62). -/
  | modexp
  /-- MODMUL, 0x02, format F3 (R64). -/
  | modmul
  /-- MODINV, 0x03, format F2 (R66). -/
  | modinv
  /-- MODRED, 0x04, format F2 (R69). -/
  | modred
  /-- CRT_DECRYPT, 0x05, format F4 (R71). -/
  | crtDecrypt
  deriving DecidableEq, Repr, Inhabited

end Sys2Proof
end

