-- ==== Sys2Proof/Decode.lean ====
section
/-! DEFINITION. The command word: opcode map, decoder and encoder (spec/30_encoding.md R52, R53, R57 to R59). The
decoder is total on every 64-bit word and reads only bits [7:0]; an opcode with no command is rejected by name. -/

namespace Sys2Proof

/-- The opcode map of R53. -/
def opcode : Instr → Op
  | .modexp => 0x01#8
  | .modmul => 0x02#8
  | .modinv => 0x03#8
  | .modred => 0x04#8
  | .crtDecrypt => 0x05#8

/-- What a command word says: a command, or an opcode with no command (R57). -/
inductive Decoded where
  | command (i : Instr)
  | illegalOpcode (op : Op)
  deriving DecidableEq, Repr

/-- The decoder on the opcode byte: 0x01 to 0x05 are the commands, 0x00 and 0x06 to 0xFF are illegal (R53, R57). -/
def decodeOp (op : Op) : Decoded :=
  if op = 0x01#8 then .command .modexp
  else if op = 0x02#8 then .command .modmul
  else if op = 0x03#8 then .command .modinv
  else if op = 0x04#8 then .command .modred
  else if op = 0x05#8 then .command .crtDecrypt
  else .illegalOpcode op

/-- The field OP of a command word, bits [7:0] (R52). -/
def opField (v : Word) : Op := v.extractLsb' 0 8

/-- The decoder of a command word: it needs only v[7:0] (R53, R58, R59). -/
def decode (v : Word) : Decoded := decodeOp (opField v)

/-- The command word of a command, with the reserved bits [63:8] at 0 as software should write them (R52). -/
def encode (i : Instr) : Word := (opcode i).setWidth 64

/-- The command the decoder reads from a word whose low `nbits` bits are `w`, every bit above them 0. A command word
is one 64-bit word on req_wdata, so no byte order arises (R44, log 19). -/
def decodeTableWord (nbits w : Nat) : Option Instr :=
  match decode (BitVec.ofNat 64 (w % 2 ^ nbits)) with
  | .command i => some i
  | .illegalOpcode _ => none

end Sys2Proof
end

