-- ==== Sys2Proof/Machine/Bus.lean ====
section
/-! DEFINITION. The register window and what can happen at CORE's interface: the nine registers and their offsets
(spec/10_state.md R14), one bus access and its response (spec/20_memory.md R33 to R40), and the events of a run
(R13, R47). -/

namespace Sys2Proof.Machine

/-- The nine registers of the window (R14). -/
inductive RegName where
  | id | cmd | status | irqEn | opa | opb | opc | opd | result
  deriving DecidableEq, Repr, Inhabited

/-- The byte offset of a register (R14, R60). -/
def RegName.off : RegName → Offset
  | .id => 0x00#7
  | .cmd => 0x08#7
  | .status => 0x10#7
  | .irqEn => 0x18#7
  | .opa => 0x20#7
  | .opb => 0x28#7
  | .opc => 0x30#7
  | .opd => 0x38#7
  | .result => 0x40#7

/-- An access is aligned when req_addr[2:0] = 0 (R39). -/
def aligned (off : Offset) : Bool := off.extractLsb' 0 3 == 0#3

/-- The register an offset names; none at a reserved or misaligned offset (R14, R39, R40). -/
def regAt (off : Offset) : Option RegName :=
  if off = 0x00#7 then some .id
  else if off = 0x08#7 then some .cmd
  else if off = 0x10#7 then some .status
  else if off = 0x18#7 then some .irqEn
  else if off = 0x20#7 then some .opa
  else if off = 0x28#7 then some .opb
  else if off = 0x30#7 then some .opc
  else if off = 0x38#7 then some .opd
  else if off = 0x40#7 then some .result
  else none

/-- req_addr of a platform address: (platform address - BASE)[6:0] when the address lies in the window, none when it
does not reach CORE (R37). -/
def reqAddr (platformAddr : Nat) : Option Offset :=
  if Config.base ≤ platformAddr ∧ platformAddr < Config.base + Config.window then
    some (BitVec.ofNat 7 (platformAddr - Config.base))
  else none

/-- On a byte-addressed platform, the address that holds bits [8k+7:8k] of a register (R44). -/
def platformByteAddr (r : RegName) (k : Fin 8) : Nat :=
  Config.base + r.off.toNat + (Config.platformByteOrder k).val

/-- The size of an access a platform may attempt. CORE's own bus has 64 bits only (R38). -/
inductive Width where
  | byte | half | word | dword
  deriving DecidableEq, Repr, Inhabited

/-- One bus access: req_write, req_addr, req_wdata (ignored on a read), and its size, which is always 64 bits on CORE's
own bus (R33, R38). -/
structure Access where
  write : Bool
  addr : Offset
  wdata : Word
  width : Width
  deriving DecidableEq, Repr, Inhabited

/-- A response: rsp_rdata and rsp_err (R33). -/
structure Response where
  rdata : Word
  err : Bool
  deriving DecidableEq, Repr, Inhabited

/-- MemRead(off, 8) as a request (R11, R41). -/
def readAccess (off : Offset) : Access := ⟨false, off, 0#64, .dword⟩

/-- MemWrite(off, 8, v) as a request (R11, R42). -/
def writeAccess (off : Offset) (v : Word) : Access := ⟨true, off, v, .dword⟩

/-- What moves next in a run of CORE: an interleaving of bus transactions, responses, completions and resets (R13,
R34, R47). Log 1. -/
inductive Event where
  /-- A master presents a request and holds it until it is taken (R34, R35). -/
  | request (a : Access)
  /-- The bus presents the pending response (R34). -/
  | response
  /-- The core takes its step, if it has one (R78). -/
  | core
  /-- A rising clock edge with rst = 1 (R92). -/
  | reset
  deriving DecidableEq, Repr, Inhabited

end Sys2Proof.Machine
end

