-- ==== Sys2Proof/Machine/State.lean ====
section
/-! DEFINITION. The state of CORE as plain data, what can stop a step, and the state after reset (spec/10_state.md,
spec/70_reset_and_hazards.md R92). -/

namespace Sys2Proof.Machine

/-- STATUS.ERR, the outcome class of the last completed command (R20, R75). -/
inductive ErrClass where
  | noError | domain | range | illegal
  deriving DecidableEq, Repr, Inhabited

/-- STATUS.CAUSE, the precise cause of the last completed command (R21, R76). Values 8 to 15 are never produced. -/
inductive Cause where
  | noCause | badModulus | notInvertible | negExponent | modTooLarge | nOverflow | cOutOfRange | illegalOp
  deriving DecidableEq, Repr, Inhabited

/-- The stored fields of STATUS; its reserved bits read as 0 and hold nothing (R17 to R22). -/
structure Status where
  busy : Bool
  done : Bool
  overrun : Bool
  err : ErrClass
  cause : Cause
  deriving DecidableEq, Repr, Inhabited

/-- The stored fields of IRQ_EN (R23). -/
structure IrqEn where
  doneIe : Bool
  overrunIe : Bool
  deriving DecidableEq, Repr, Inhabited

/-- The latched command L[OP], L[A], L[B], L[C], L[D] (R30). -/
structure Latched where
  op : Op
  a : Word
  b : Word
  c : Word
  d : Word
  deriving DecidableEq, Repr, Inhabited

/-- One exponentiation unit: running square, remaining exponent, accumulator, modulus (R31, R63). -/
structure ExpUnit where
  eb : Word
  ee : Word
  eacc : Word
  em : Word
  deriving DecidableEq, Repr, Inhabited

/-- The inversion unit: remainders and Bézout coefficients (R31, R67). -/
structure InvUnit where
  ir0 : Word
  ir1 : Word
  is0 : Word
  is1 : Word
  deriving DecidableEq, Repr, Inhabited

/-- The reduction unit: quotient estimate and partial remainder (R31, R70). -/
structure RedUnit where
  rq : Word
  rr : Word
  deriving DecidableEq, Repr, Inhabited

/-- The CRT controller's registers (R31, R73). -/
structure CrtUnit where
  dp : Word
  dq : Word
  invp : Word
  a1 : Word
  a2 : Word
  h : Word
  deriving DecidableEq, Repr, Inhabited

/-- The hidden datapath registers of the four units (R31). No offset reads them. -/
structure Units where
  exp0 : ExpUnit
  exp1 : ExpUnit
  inv : InvUnit
  red : RedUnit
  crt : CrtUnit
  deriving DecidableEq, Repr, Inhabited

/-- The state of CORE. `schedule` and `freeCount` are the model's own (log 1, log 8); every other field is the spec's. -/
structure State where
  /-- CMD.OP (R16). -/
  cmdOp : Op
  /-- STATUS (R17 to R22). CSTATE is `status.busy` (R28). -/
  status : Status
  /-- IRQ_EN (R23). -/
  irqEn : IrqEn
  /-- OPA (R25). -/
  opa : Word
  /-- OPB (R25). -/
  opb : Word
  /-- OPC (R25). -/
  opc : Word
  /-- OPD (R25). -/
  opd : Word
  /-- RESULT (R26). -/
  result : Word
  /-- L[OP], L[A] to L[D] (R30). -/
  latched : Latched
  /-- The unit datapath registers (R31). -/
  units : Units
  /-- The response of a taken request that is not delivered yet (R34). -/
  rspPending : Option Response
  /-- The response port in this cycle: rsp_valid is `rspOut.isSome` (R33, R34). -/
  rspOut : Option Response
  /-- What moves next; when it is empty, CORE finishes what it has under way (log 1, log 2). -/
  schedule : List Event
  /-- The number of free values used so far (log 8). -/
  freeCount : Nat
  deriving DecidableEq, Repr, Inhabited

/-- What stops the machine. -/
inductive Fault where
  /-- Raised by `coreTurn` when BUSY = 1 and L[OP] is no legal opcode. The spec gives that state no step, and no run
  from reset reaches it (invariant). Safe: the model stops. Log 15. -/
  | latchedOpIllegal
  deriving DecidableEq, Repr, Inhabited

/-- What the model refuses, by name. -/
inductive Refusal where
  /-- No meaning for the command yet; raised by an arm of `exec` only. No arm raises it. Safe. -/
  | notModelled (mnemonic : String)
  /-- Raised by `takeRequest` for an access narrower than 64 bits: "A model refuses any access narrower than 8 bytes"
  (R38). Safe: the model stops. Log 10. -/
  | narrowAccess (width : Width)
  deriving DecidableEq, Repr, Inhabited

/-- STATUS after reset: every field 0 (R92). -/
def Status.zero : Status := ⟨false, false, false, .noError, .noCause⟩

/-- The unit registers after reset. DESIGN CHOICE 0: the spec leaves them unspecified (R31). Log 6. -/
def Units.zero : Units :=
  { exp0 := ⟨0#64, 0#64, 0#64, 0#64⟩
    exp1 := ⟨0#64, 0#64, 0#64, 0#64⟩
    inv := ⟨0#64, 0#64, 0#64, 0#64⟩
    red := ⟨0#64, 0#64⟩
    crt := ⟨0#64, 0#64, 0#64, 0#64, 0#64, 0#64⟩ }

/-- The machine right after reset (R92). L[*] and the unit registers are unspecified there; DESIGN CHOICE 0 (log 5,
log 6). Nothing is scheduled. -/
def State.reset : State :=
  { cmdOp := 0x00#8
    status := Status.zero
    irqEn := ⟨false, false⟩
    opa := 0#64
    opb := 0#64
    opc := 0#64
    opd := 0#64
    result := 0#64
    latched := ⟨0x00#8, 0#64, 0#64, 0#64, 0#64⟩
    units := Units.zero
    rspPending := none
    rspOut := none
    schedule := []
    freeCount := 0 }

end Sys2Proof.Machine
end

