-- ==== Sys2Proof/Machine/Operands.lean ====
section
/-! DEFINITION. Operand formats, the latching of the operand registers, and the reading of a latched operand as a
signed integer (spec/30_encoding.md R54, R55; spec/10_state.md R30; spec/00_scope.md R5). -/

namespace Sys2Proof.Machine

/-- `sval(v)`, the two's-complement reading of a 64-bit pattern (R5). -/
def sval (v : Word) : Int := v.toInt

/-- The pattern a result or a hidden register stores for an integer (R5). -/
def pattern64 (r : Int) : Word := BitVec.ofInt 64 r

/-- The operand formats of R54. -/
inductive Format where
  | f2 | f3 | f4
  deriving DecidableEq, Repr, Inhabited

/-- The format of each command (R53, R54). -/
def formatOf : Instr → Format
  | .modexp => .f3
  | .modmul => .f3
  | .modinv => .f2
  | .modred => .f2
  | .crtDecrypt => .f4

/-- The format reads L[B] (R54). -/
def readsB : Format → Bool
  | .f2 => false
  | .f3 => true
  | .f4 => true

/-- The format reads L[D] (R54). -/
def readsD : Format → Bool
  | .f2 => false
  | .f3 => false
  | .f4 => true

/-- What acceptance latches: the opcode and the four operand registers (R30, R56). -/
def latchCommand (op : Op) (s : State) : Latched := ⟨op, s.opa, s.opb, s.opc, s.opd⟩

/-- The numeric value of L[A] (R54). -/
def opA (s : State) : Int := sval s.latched.a

/-- The numeric value of L[B] (R54). -/
def opB (s : State) : Int := sval s.latched.b

/-- The numeric value of L[C] (R54). -/
def opC (s : State) : Int := sval s.latched.c

/-- The numeric value of L[D] (R54). -/
def opD (s : State) : Int := sval s.latched.d

end Sys2Proof.Machine
end

