-- ==== Sys2Proof/Machine/ExpUnit.lean ====
section
/-! DEFINITION. The modular exponentiation unit: the right-to-left reference algorithm of spec/40_modexp.md R63. Its
result is the functional result of R62 (stated as an obligation). -/

namespace Sys2Proof.Machine

/-- The working values of one exponentiation: EB, EE, EACC (R63). EM is the modulus throughout. -/
structure ExpWork where
  eb : Int
  ee : Int
  eacc : Int
  deriving DecidableEq, Repr

/-- The seed step: the lowest exponent bit is folded in before the loop (R63). -/
def expSeed (b e m : Int) : ExpWork :=
  { eb := modFloor b m
    ee := divFloor e 2
    eacc := if modFloor e 2 = 1 then modFloor b m else modFloor 1 m }

/-- One turn of the loop: square, multiply if the low exponent bit is set, shift (R63). -/
def expIter (m : Int) (w : ExpWork) : ExpWork :=
  { eb := mulmod w.eb w.eb m
    ee := divFloor w.ee 2
    eacc := if modFloor w.ee 2 = 1 then mulmod w.eacc (mulmod w.eb w.eb m) m else w.eacc }

/-- `while EE != 0`, at most `n` turns (R63). -/
def expLoop (m : Int) : Nat → ExpWork → ExpWork
  | 0, w => w
  | n + 1, w => if w.ee = 0 then w else expLoop m n (expIter m w)

/-- Enough turns for every 64-bit exponent: the loop runs bitlen(e) - 1 times (R63). Log 21. -/
def expTurns : Nat := 64

/-- The working values when the loop ends. -/
def expRun (b e m : Int) : ExpWork := expLoop m expTurns (expSeed b e m)

/-- `MODEXP_ref(b, e, m)` (R63), for 1 <= m <= MAX_MOD and e >= 0. -/
def modexpRef (b e m : Int) : Int := if e = 0 then modFloor 1 m else (expRun b e m).eacc

/-- The unit's registers after `MODEXP_ref(b, e, m)`; with e = 0 only EM and EB are written (R63). Log 7. -/
def expUnitAfter (u : ExpUnit) (b e m : Int) : ExpUnit :=
  if e = 0 then { u with em := pattern64 m, eb := pattern64 (modFloor b m) }
  else
    { em := pattern64 m
      eb := pattern64 (expRun b e m).eb
      ee := pattern64 (expRun b e m).ee
      eacc := pattern64 (expRun b e m).eacc }

end Sys2Proof.Machine
end

