-- ==== Sys2Proof/Machine/InvUnit.lean ====
section
/-! DEFINITION. The modular inversion unit: the extended Euclidean reference algorithm of spec/41_modinv.md R67. Its
result is the functional result of R66 (stated as an obligation). -/

namespace Sys2Proof.Machine

/-- The working values: remainders IR0, IR1 and Bézout coefficients IS0, IS1 (R67). -/
structure InvWork where
  ir0 : Int
  ir1 : Int
  is0 : Int
  is1 : Int
  deriving DecidableEq, Repr

/-- The start: IR0 = mod_floor(a, m), IR1 = m, IS0 = 1, IS1 = 0 (R67). -/
def invSeed (a m : Int) : InvWork := ⟨modFloor a m, m, 1, 0⟩

/-- One turn of the loop (R67). -/
def invIter (w : InvWork) : InvWork :=
  { ir0 := w.ir1
    ir1 := w.ir0 - divFloor w.ir0 w.ir1 * w.ir1
    is0 := w.is1
    is1 := w.is0 - divFloor w.ir0 w.ir1 * w.is1 }

/-- `while IR1 != 0`, at most `n` turns (R67). -/
def invLoop : Nat → InvWork → InvWork
  | 0, w => w
  | n + 1, w => if w.ir1 = 0 then w else invLoop n (invIter w)

/-- Enough turns for every modulus below 2^63: IR1 at least halves every two turns. Log 21. -/
def invTurns : Nat := 130

/-- The working values when the loop ends; then IR0 is the gcd (R67). -/
def invRun (a m : Int) : InvWork := invLoop invTurns (invSeed a m)

/-- `MODINV_ref(a, m)` for m >= 1: the inverse in [0, m), or none where it raises NOT_INVERTIBLE (R67). -/
def modinvRef (a m : Int) : Option Int :=
  if (invRun a m).ir0 = 1 then some (modFloor (invRun a m).is0 m) else none

/-- The unit's registers when the loop ends (R67). Log 7. -/
def invUnitAfter (a m : Int) : InvUnit :=
  { ir0 := pattern64 (invRun a m).ir0
    ir1 := pattern64 (invRun a m).ir1
    is0 := pattern64 (invRun a m).is0
    is1 := pattern64 (invRun a m).is1 }

end Sys2Proof.Machine
end

