-- ==== Sys2Proof/Machine/Flags.lean ====
section
/-! DEFINITION. STATUS and IRQ_EN as words, their writes, the class of a cause, and CORE's output ports
(spec/10_state.md R17 to R24, R28; spec/20_memory.md R33; spec/60_exceptions.md R76). -/

namespace Sys2Proof.Machine

/-- The value of STATUS.ERR (R20). -/
def errCode : ErrClass → BitVec 2
  | .noError => 0#2
  | .domain => 1#2
  | .range => 2#2
  | .illegal => 3#2

/-- The value of STATUS.CAUSE (R76). -/
def causeCode : Cause → BitVec 4
  | .noCause => 0#4
  | .badModulus => 1#4
  | .notInvertible => 2#4
  | .negExponent => 3#4
  | .modTooLarge => 4#4
  | .nOverflow => 5#4
  | .cOutOfRange => 6#4
  | .illegalOp => 7#4

/-- The error class that goes with a cause (R21, R76). -/
def causeClass : Cause → ErrClass
  | .noCause => .noError
  | .badModulus => .domain
  | .notInvertible => .domain
  | .negExponent => .range
  | .modTooLarge => .range
  | .nOverflow => .range
  | .cOutOfRange => .range
  | .illegalOp => .illegal

/-- STATUS as it reads: `zext_12(CAUSE<<8 | ERR<<4 | OVERRUN<<2 | DONE<<1 | BUSY)` (R22, R41). -/
def statusWord (st : Status) : Word :=
  (causeCode st.cause).setWidth 64 <<< 8 ||| (errCode st.err).setWidth 64 <<< 4
    ||| (BitVec.ofBool st.overrun).setWidth 64 <<< 2 ||| (BitVec.ofBool st.done).setWidth 64 <<< 1
    ||| (BitVec.ofBool st.busy).setWidth 64

/-- A STATUS write: a 1 in bit 1 clears DONE, a 1 in bit 2 clears OVERRUN, every other bit is ignored (R22, R42). -/
def statusW1c (v : Word) (st : Status) : Status :=
  { st with
    done := st.done && !v.getLsbD 1
    overrun := st.overrun && !v.getLsbD 2 }

/-- IRQ_EN as it reads: `zext_2(OVERRUN_IE<<1 | DONE_IE)` (R23, R41). -/
def irqEnWord (e : IrqEn) : Word :=
  (BitVec.ofBool e.overrunIe).setWidth 64 <<< 1 ||| (BitVec.ofBool e.doneIe).setWidth 64

/-- An IRQ_EN write stores bits 0 and 1 (R23, R42). -/
def irqEnOfWord (v : Word) : IrqEn := ⟨v.getLsbD 0, v.getLsbD 1⟩

/-- STATUS after a success: DONE = 1, BUSY = 0, ERR = 0, CAUSE = 0, OVERRUN kept (R78, R79). -/
def statusSucceeded (st : Status) : Status :=
  { st with busy := false, done := true, err := .noError, cause := .noCause }

/-- STATUS after a failure: DONE = 1, BUSY = 0, the class and the cause, OVERRUN kept (R78, R80). -/
def statusFailed (c : Cause) (st : Status) : Status :=
  { st with busy := false, done := true, err := causeClass c, cause := c }

/-- STATUS after the acceptance of a legal command: BUSY = 1, DONE, ERR and CAUSE cleared, OVERRUN kept (R56). -/
def statusAccepted (st : Status) : Status :=
  { st with busy := true, done := false, err := .noError, cause := .noCause }

/-- STATUS after an illegal opcode: DONE = 1, ERR = 3, CAUSE = 7, BUSY and OVERRUN kept (R57). -/
def statusIllegal (st : Status) : Status :=
  { st with done := true, err := .illegal, cause := .illegalOp }

/-- STATUS after a CMD write that is dropped (R19). -/
def statusOverrun (st : Status) : Status := { st with overrun := true }

/-- CSTATE, the sequencing state (R28). -/
inductive CState where
  | idle | busy
  deriving DecidableEq, Repr, Inhabited

/-- CSTATE always equals STATUS.BUSY (R28). Log 17. -/
def cstate (s : State) : CState := if s.status.busy then .busy else .idle

/-- The irq output, a level (R24). -/
def irq (s : State) : Bool :=
  (s.status.done && s.irqEn.doneIe) || (s.status.overrun && s.irqEn.overrunIe)

/-- The req_ready output: 0 while rst = 1 and while a response is pending (R33, R34). -/
def reqReady (rst : Bool) (s : State) : Bool := !rst && s.rspPending.isNone

/-- The rsp_valid output (R33). -/
def rspValid (s : State) : Bool := s.rspOut.isSome

end Sys2Proof.Machine
end

