-- ==== Sys2Proof/WellFormed.lean ====
section
/-! DEFINITION. Well-formedness of what a host gives CORE: a command, a command word with its reserved bits at 0, and a
bus access that CORE answers without a bus error. -/

namespace Sys2Proof

/-- A command is well formed when its opcode is one of 0x01 to 0x05 (R53). A command word has no operand field (R52,
R55), so there is nothing else to check. -/
def Instr.wellFormed (i : Instr) : Bool := decide (1 ≤ (opcode i).toNat ∧ (opcode i).toNat ≤ 5)

/-- A command word as software should write it: a legal opcode, and bits [63:8] at 0 (R52). CORE itself accepts any
value of bits [63:8] (R58). -/
def wordWellFormed (v : Word) : Bool :=
  v.extractLsb' 8 56 == 0#56 && decide (1 ≤ (opField v).toNat ∧ (opField v).toNat ≤ 5)

namespace Machine

/-- The access moves 64 bits (R38). -/
def Access.fullWidth (a : Access) : Bool := a.width == .dword

/-- The access names a register of the window: aligned and not reserved (R39, R40). -/
def Access.mapped (a : Access) : Bool := aligned a.addr && (regAt a.addr).isSome

/-- An access that CORE answers with rsp_err = 0. -/
def Access.wellFormed (a : Access) : Bool := a.fullWidth && a.mapped

end Machine

end Sys2Proof
end

