-- ==== Sys2Proof/Machine/Ops.lean ====
section
/-! DEFINITION. The named operations of CORE: how a command ends, how a command word is issued, one bus transaction,
the response, and the reset step (spec/20_memory.md R35 to R43, spec/30_encoding.md R56 and R57,
spec/60_exceptions.md R78 to R81, spec/70_reset_and_hazards.md R92). -/

namespace Sys2Proof.Machine

/-! ## How a command ends

CORE takes no trap (R81). What stands in the place of taking an exception is `raiseError`, shared by every command and
every cause; the host's acknowledgement (R82) is the STATUS write `statusW1c`. -/

/-- `complete(r)`: the in-flight command ends with RESULT = r, ERR = 0, CAUSE = 0 (R78, R79). -/
def completeWith (r : Int) (s : State) : State :=
  { s with result := pattern64 r, status := statusSucceeded s.status }

/-- `raise DomainError(cause)` or `raise RangeError(cause)`: the in-flight command ends with that class and cause, and
RESULT is unchanged (R78, R80). -/
def raiseError (c : Cause) (s : State) : State :=
  { s with status := statusFailed c s.status }

/-- The unit registers after a command, and the number of free values it used. -/
def withUnits (u : Units) (used : Nat) (s : State) : State :=
  { s with units := u, freeCount := s.freeCount + used }

/-- Reduction unit registers whose last value no rule gives: two free values. Log 8. -/
def freeRedUnit (n : Nat) : RedUnit := ⟨Config.freeWord n, Config.freeWord (n + 1)⟩

/-- Exponentiation unit registers whose last value no rule gives: four free values. Log 8. -/
def freeExpUnit (n : Nat) : ExpUnit :=
  ⟨Config.freeWord n, Config.freeWord (n + 1), Config.freeWord (n + 2), Config.freeWord (n + 3)⟩

/-! ## Issuing a command -/

/-- Acceptance of a legal command: the opcode and the four operand registers are latched, BUSY is set, and DONE, ERR
and CAUSE are cleared (R30, R56). -/
def acceptCommand (op : Op) (s : State) : State :=
  { s with cmdOp := op, latched := latchCommand op s, status := statusAccepted s.status }

/-- An illegal opcode completes at once with ERR = 3 and CAUSE = 7 (R57). -/
def illegalCommand (op : Op) (s : State) : State :=
  { s with cmdOp := op, status := statusIllegal s.status }

/-- A CMD write while BUSY = 1 is dropped and sets OVERRUN (R19, R56). -/
def dropCommand (s : State) : State := { s with status := statusOverrun s.status }

/-- `issue(v)`, the effect of a CMD write (R56). -/
def issue (v : Word) (s : State) : State :=
  if s.status.busy then dropCommand s
  else
    match decode v with
    | .command _ => acceptCommand (opField v) s
    | .illegalOpcode op => illegalCommand op s

/-- The command in flight, read from L[OP] (R30, R78). -/
def inFlight (s : State) : Decoded := decodeOp s.latched.op

/-! ## The register window -/

/-- `MemRead(off, 8)` of a mapped register (R41). -/
def readReg (r : RegName) (s : State) : Word :=
  match r with
  | .id => Config.idValue
  | .cmd => s.cmdOp.setWidth 64
  | .status => statusWord s.status
  | .irqEn => irqEnWord s.irqEn
  | .opa => s.opa
  | .opb => s.opb
  | .opc => s.opc
  | .opd => s.opd
  | .result => s.result

/-- `MemWrite(off, 8, v)` to a mapped register (R42, R43). -/
def writeReg (r : RegName) (v : Word) (s : State) : State :=
  match r with
  | .id => s
  | .cmd => issue v s
  | .status => { s with status := statusW1c v s.status }
  | .irqEn => { s with irqEn := irqEnOfWord v }
  | .opa => { s with opa := v }
  | .opb => { s with opb := v }
  | .opc => { s with opc := v }
  | .opd => { s with opd := v }
  | .result => s

/-- The response of a bus error: rsp_err = 1, rsp_rdata = 0 (R39, R40). -/
def busError : Response := ⟨0#64, true⟩

/-- One 64-bit bus transaction, response and effect in one step (R35, R39 to R43). -/
def transact (a : Access) (s : State) : Response × State :=
  if aligned a.addr then
    match regAt a.addr with
    | some r => if a.write then (⟨0#64, false⟩, writeReg r a.wdata s) else (⟨readReg r s, false⟩, s)
    | none => (busError, s)
  else (busError, s)

/-- What a 64-bit read of an offset returns, with no effect: the observation the frame statements use. -/
def windowRead (off : Offset) (s : State) : Response := (transact (readAccess off) s).1

/-- A request is taken: its whole effect is applied and its response becomes pending (R34, R35). An access narrower
than 64 bits is refused (R38, log 10). -/
def takeRequest (a : Access) (s : State) : Host.Outcome State Fault Refusal :=
  if a.fullWidth then
    .next { (transact a s).2 with rspPending := some (transact a s).1 }
  else .refused (.narrowAccess a.width)

/-- The pending response, if there is one, is presented in this cycle (R34). -/
def deliver (s : State) : State := { s with rspOut := s.rspPending, rspPending := none }

/-- A new cycle: rsp_valid is high for exactly one cycle per request (R33). -/
def beginCycle (s : State) : State := { s with rspOut := none }

/-- The schedule moves on to `rest`. -/
def setSchedule (rest : List Event) (s : State) : State := { s with schedule := rest }

/-- A request at the head of the schedule: while a response is pending req_ready is 0, so that response comes first and
the request is held; otherwise it is taken (R34, log 4). -/
def requestTurn (a : Access) (rest : List Event) (s : State) : Host.Outcome State Fault Refusal :=
  if reqReady false s then takeRequest a (setSchedule rest s) else .next (deliver s)

/-- `reset_step` (R92): every register at its reset value, the command in flight abandoned, a pending response lost.
The schedule and the free value counter are the model's own and go on. -/
def resetCore (s : State) : State :=
  { State.reset with schedule := s.schedule, freeCount := s.freeCount }

end Sys2Proof.Machine
end

