-- ==== Sys2Proof/Machine/Crt.lean ====
section
/-! DEFINITION. CRT_DECRYPT and the CRT controller (spec/43_crt.md R71, R73). -/

namespace Sys2Proof.Machine

/-- `h = mulmod(mod_floor(a2 - a1, q), invP, q)` (R71). -/
def crtH (a1 a2 invp q : Int) : Int := mulmod (modFloor (a2 - a1) q) invp q

/-- The recombined result `a1 + p * h` (R71). -/
def crtRecombine (a1 a2 invp p q : Int) : Int := a1 + p * crtH a1 a2 invp q

/-- `dp` or `dq`: the private exponent reduced modulo r - 1 (R71). -/
def crtHalfExponent (d r : Int) : Int := modFloor d (r - 1)

/-- `a1` or `a2`: one half exponentiation (R71). -/
def crtHalf (c d r : Int) : Int := modexpRef c (crtHalfExponent d r) r

/-- The result of CRT_DECRYPT from `invP` (R71). -/
def crtResult (c d p q invp : Int) : Int := crtRecombine (crtHalf c d p) (crtHalf c d q) invp p q

/-- The units after a successful CRT_DECRYPT (R73): both exponentiation units, the inversion unit and the controller's
registers; the reduction unit's last reduction is not given, so RQ and RR are free (log 7, log 8). -/
def crtUnits (c d p q invp : Int) (s : State) : Units :=
  { exp0 := expUnitAfter s.units.exp0 c (crtHalfExponent d p) p
    exp1 := expUnitAfter s.units.exp1 c (crtHalfExponent d q) q
    inv := invUnitAfter p q
    red := freeRedUnit s.freeCount
    crt :=
      { dp := pattern64 (crtHalfExponent d p)
        dq := pattern64 (crtHalfExponent d q)
        invp := pattern64 invp
        a1 := pattern64 (crtHalf c d p)
        a2 := pattern64 (crtHalf c d q)
        h := pattern64 (crtH (crtHalf c d p) (crtHalf c d q) invp q) } }

/-- The units after a CRT_DECRYPT that fails with cause 2, which the inversion unit's run decides. Whether DP and DQ
were written before it is not given ("the order of phases inside (2)", R73), so they are free (log 8). -/
def crtUnitsNotInvertible (p q : Int) (s : State) : Units :=
  { s.units with
    inv := invUnitAfter p q
    red := freeRedUnit s.freeCount
    crt := { s.units.crt with
      dp := Config.freeWord (s.freeCount + 2), dq := Config.freeWord (s.freeCount + 3) } }

/-- CRT_DECRYPT on c, d, p, q; causes 1, 3, 4, 5, 6, 2 in that order (R71). -/
def crtDecrypt (c d p q : Int) (s : State) : State :=
  if p ≤ 1 ∨ q ≤ 1 then raiseError .badModulus s
  else if d < 0 then raiseError .negExponent s
  else if Config.maxMod < p ∨ Config.maxMod < q then raiseError .modTooLarge s
  else if Config.int64Max < p * q then raiseError .nOverflow s
  else if c < 0 ∨ p * q ≤ c then raiseError .cOutOfRange s
  else
    match modinvRef p q with
    | none => raiseError .notInvertible (withUnits (crtUnitsNotInvertible p q s) 4 s)
    | some invp => completeWith (crtResult c d p q invp) (withUnits (crtUnits c d p q invp s) 2 s)

/-- CRT_DECRYPT: c in L[A], d in L[B], p in L[C], q in L[D] (R71). -/
def execCrtDecrypt (s : State) : Host.Outcome State Fault Refusal :=
  .next (crtDecrypt (opA s) (opB s) (opC s) (opD s) s)

end Sys2Proof.Machine
end

