-- ==== Sys2Proof/Machine/Modexp.lean ====
section
/-! DEFINITION. MODEXP and MODMUL, on exponentiation unit 0 (spec/40_modexp.md R62, R64). -/

namespace Sys2Proof.Machine

/-- The units after an accepted MODEXP: unit 0 as R63 leaves it; which reduction came last is not given, so RQ and RR
are free (log 7, log 8). -/
def modexpUnits (b e m : Int) (s : State) : Units :=
  { s.units with exp0 := expUnitAfter s.units.exp0 b e m, red := freeRedUnit s.freeCount }

/-- MODEXP: `mod_floor(b^e, m)`; causes 1, 3, 4 in that order (R62). -/
def execModexp (s : State) : Host.Outcome State Fault Refusal :=
  if opC s ≤ 0 then .next (raiseError .badModulus s)
  else if opB s < 0 then .next (raiseError .negExponent s)
  else if Config.maxMod < opC s then .next (raiseError .modTooLarge s)
  else
    .next (completeWith (modexpRef (opA s) (opB s) (opC s))
      (withUnits (modexpUnits (opA s) (opB s) (opC s) s) 2 s))

/-- The units after an accepted MODMUL: it runs on unit 0 and the reduction unit, and no rule says what their
registers hold after it, so they are free (log 8). -/
def modmulUnits (s : State) : Units :=
  { s.units with exp0 := freeExpUnit s.freeCount, red := freeRedUnit (s.freeCount + 4) }

/-- MODMUL: `mulmod(mod_floor(a, m), mod_floor(b, m), m)`; causes 1, 4 in that order (R64). -/
def execModmul (s : State) : Host.Outcome State Fault Refusal :=
  if opC s ≤ 0 then .next (raiseError .badModulus s)
  else if Config.maxMod < opC s then .next (raiseError .modTooLarge s)
  else
    .next (completeWith (mulmod (modFloor (opA s) (opC s)) (modFloor (opB s) (opC s)) (opC s))
      (withUnits (modmulUnits s) 6 s))

end Sys2Proof.Machine
end

