-- ==== Sys2Proof/Machine/Modinv.lean ====
section
/-! DEFINITION. MODINV, on the inversion unit (spec/41_modinv.md R66). -/

namespace Sys2Proof.Machine

/-- The units after a MODINV whose modulus is positive: the inversion unit as R67 leaves it; the reduction unit is used
too and its last reduction is not given, so RQ and RR are free (log 7, log 8). -/
def modinvUnits (a m : Int) (s : State) : Units :=
  { s.units with inv := invUnitAfter a m, red := freeRedUnit s.freeCount }

/-- MODINV: the inverse of a modulo m in [0, m); causes 1, 2 in that order (R66). -/
def execModinv (s : State) : Host.Outcome State Fault Refusal :=
  if opC s ≤ 0 then .next (raiseError .badModulus s)
  else
    match modinvRef (opA s) (opC s) with
    | none => .next (raiseError .notInvertible (withUnits (modinvUnits (opA s) (opC s) s) 2 s))
    | some y => .next (completeWith y (withUnits (modinvUnits (opA s) (opC s) s) 2 s))

end Sys2Proof.Machine
end

