-- ==== Sys2Proof/Machine/RedUnit.lean ====
section
/-! DEFINITION. The modular reduction unit: quotient estimation and subtraction (spec/42_modred.md R70). The estimator
and its bound are not architectural, so the estimate is a free value within the bound; the result is
`mod_floor(a, m)` whatever it is (stated as an obligation). -/

namespace Sys2Proof.Machine

/-- The subtract phase: while RR >= m, RR <- RR - m, at most `k` times (R70). -/
def redCorrect (m : Int) : Nat → Int → Int
  | 0, rr => rr
  | k + 1, rr => if m ≤ rr then redCorrect m k (rr - m) else rr

/-- The remainder the unit computes from an estimate `rq` of the quotient that is at most `k` too small (R70). -/
def redFromEstimate (k : Nat) (rq a m : Int) : Int := redCorrect m k (a - rq * m)

/-- The estimate of this implementation: a free value with RQ <= div_floor(a, m) <= RQ + K (R70). Log 9. -/
def redEstimate (n : Nat) (a m : Int) : Int :=
  divFloor a m - (((Config.freeWord n).toNat % (Config.reductionSlack + 1) : Nat) : Int)

/-- The unit's registers after it reduced a modulo m, with the n-th free value (R70). Log 9. -/
def redUnitAfter (n : Nat) (a m : Int) : RedUnit :=
  { rq := pattern64 (redEstimate n a m)
    rr := pattern64 (modFloor a m) }

end Sys2Proof.Machine
end

