-- ==== Sys2Proof/Machine/Modred.lean ====
section
/-! DEFINITION. MODRED, on the reduction unit (spec/42_modred.md R69). -/

namespace Sys2Proof.Machine

/-- The units after an accepted MODRED (R70, log 9). -/
def modredUnits (a m : Int) (s : State) : Units :=
  { s.units with red := redUnitAfter s.freeCount a m }

/-- MODRED: `mod_floor(a, m)`; cause 1 (R69). -/
def execModred (s : State) : Host.Outcome State Fault Refusal :=
  if opC s ≤ 0 then .next (raiseError .badModulus s)
  else
    .next (completeWith (modFloor (opA s) (opC s)) (withUnits (modredUnits (opA s) (opC s) s) 1 s))

end Sys2Proof.Machine
end

