-- ==== Sys2Proof/Machine/Dispatch.lean ====
section
/-! DEFINITION. The completion step of each command: the functional rule F of spec/60_exceptions.md R78, one arm per
row of spec/opcode_table.json. -/

namespace Sys2Proof.Machine

def exec (i : Instr) (s : State) : Host.Outcome State Fault Refusal :=
  match i with
  | .modexp => Sys2Proof.Machine.execModexp s
  | .modmul => Sys2Proof.Machine.execModmul s
  | .modinv => Sys2Proof.Machine.execModinv s
  | .modred => Sys2Proof.Machine.execModred s
  | .crtDecrypt => Sys2Proof.Machine.execCrtDecrypt s

end Sys2Proof.Machine
end

