-- ==== Sys2Proof/Machine/Turn.lean ====
section
/-! DEFINITION. The core's turn: the completion of the in-flight command (spec/60_exceptions.md R78), and what happens
when nothing is scheduled. -/

namespace Sys2Proof.Machine

/-- The core's step: while BUSY = 1 the in-flight command completes; while BUSY = 0 the core does no work (R78, R91,
log 3). An in-flight command with no legal opcode is a fault (log 15). -/
def coreTurn (s : State) : Host.Outcome State Fault Refusal :=
  if s.status.busy then
    match inFlight s with
    | .command i => exec i s
    | .illegalOpcode _ => .fault .latchedOpIllegal
  else .next s

/-- Nothing is scheduled: a pending response is delivered, then the command in flight completes, then nothing changes
(R34, R78: the core's step is weakly fair; log 2). -/
def restTurn (s : State) : Host.Outcome State Fault Refusal :=
  if reqReady false s then coreTurn s else .next (deliver s)

/-- What the command word placed by `withFetchWord` does: it is accepted whatever was in flight (log 14). -/
def placeCommand (v : Word) (s : State) : State :=
  issue v { s with status := { s.status with busy := false } }

end Sys2Proof.Machine
end

