-- ==== Sys2Proof/Machine/Step.lean ====
section
/-! DEFINITION. One step of a run: an interleaving of host transactions, responses, completions and resets
(spec/20_memory.md R47, spec/10_state.md R13). -/

namespace Sys2Proof.Machine

/-- One step: the head of the schedule says what moves; with an empty schedule CORE finishes what it has under way
(log 1, log 2). -/
def step (s : State) : Host.Outcome State Fault Refusal :=
  match s.schedule with
  | [] => restTurn (beginCycle s)
  | .request a :: rest => requestTurn a rest (beginCycle s)
  | .response :: rest => .next (deliver (setSchedule rest (beginCycle s)))
  | .core :: rest => coreTurn (setSchedule rest (beginCycle s))
  | .reset :: rest => .next (resetCore (setSchedule rest (beginCycle s)))

/-- The command word `w` (its low `nbits` bits, 0 above) accepted as a CMD write, and the core's turn next: the very
next step runs that command. CORE fetches nothing (R50): a command comes from the host's CMD write, whose take this
stands for (log 14). -/
def State.withFetchWord (s : State) (nbits w : Nat) : State :=
  setSchedule (.core :: s.schedule) (placeCommand (BitVec.ofNat 64 (w % 2 ^ nbits)) s)

end Sys2Proof.Machine
end

