-- ==== Sys2Proof/Machine/HostProgram.lean ====
section
/-! DEFINITION. The host's side: platform accesses, the host notation and the pseudo-instructions of
spec/30_encoding.md R60 and R61, and the end of a host program (spec/70_reset_and_hazards.md R100). The host's lines
are its own instructions, not CORE's; here each is given its bus transaction. Log 22. -/

namespace Sys2Proof.Machine

/-- The request a platform access becomes, if its address lies in CORE's window (R37). -/
def platformAccess (write : Bool) (platformAddr : Nat) (v : Word) (w : Width) : Option Access :=
  (reqAddr platformAddr).map fun off => ⟨write, off, v, w⟩

/-- A value of a `WR` line: an integer (negative values in two's complement), or a name bound by an earlier `RD` line.
Names and labels are numbered (R60, log 22). -/
inductive HostValue where
  | lit (v : Int)
  | bound (name : Nat)
  deriving DecidableEq, Repr, Inhabited

/-- One line of a host program (R60). -/
inductive HostLine where
  | wr (r : RegName) (v : HostValue)
  | rd (r : RegName) (name : Nat)
  | poll
  | clr
  | label (l : Nat)
  | bnz (name bit l : Nat)
  | bz (name bit l : Nat)
  deriving DecidableEq, Repr, Inhabited

/-- A host in the middle of its program: the line it is at, and the values its `RD` lines have bound. -/
structure HostState where
  program : List HostLine
  line : Nat
  names : List (Nat × Word)
  deriving DecidableEq, Repr, Inhabited

/-- The 64-bit value of an operand of a `WR` line, with the names bound so far; none for a name no earlier `RD` line has
bound (R60). DESIGN CHOICE: a literal that does not fit 64 bits, of which R60 says nothing, stands for its value modulo
2^64; the line is not called ill formed (log 25). -/
def hostValue (names : List (Nat × Word)) : HostValue → Option Word
  | .lit v => some (BitVec.ofInt 64 v)
  | .bound n => names.lookup n

/-- The integer the host takes an operand for in a check of its own (R61): a literal as it stands, and the signed reading
of a value read (R5; DEDUCED, log 28). -/
def hostInteger (names : List (Nat × Word)) : HostValue → Option Int
  | .lit v => some v
  | .bound n => (names.lookup n).map sval

/-- The host goes on to its next line. -/
def hostAdvance (h : HostState) : HostState := { h with line := h.line + 1 }

/-- The host jumps to a label; none where the program has no such label (log 22). DESIGN CHOICE: where a label occurs
twice, of which R60 says nothing, to its first occurrence (log 26). -/
def hostJump (l : Nat) (h : HostState) : Option HostState :=
  (h.program.findIdx? (· == HostLine.label l)).map fun k => { h with line := k }

/-- `MemWrite(off(r), 8, v)` as one host step (R35). -/
def hostWrite (r : RegName) (v : Word) (s : State) : State := (transact (writeAccess r.off v) s).2

/-- `MemRead(off(r), 8)` as one host step (R35). -/
def hostRead (r : RegName) (s : State) : Word := (transact (readAccess r.off) s).1.rdata

/-- The name `s`, into which `POLL` reads STATUS (R60). Names are numbered: this one is 0 (log 22). -/
def statusName : Nat := 0

/-- The host goes on after it has read `v` into the name `n`. -/
def hostBind (n : Nat) (v : Word) (h : HostState) : HostState := { h with names := (n, v) :: h.names }

/-- The host executes the line it is at (R60). `POLL` is one read of STATUS into `s`, repeated while s[0] = 1. None
where the program has ended or is ill formed (log 22). DESIGN CHOICE: a branch on a bit above 63, of which R60 says
nothing, takes the bit for 0 (log 26). -/
def hostLineStep (h : HostState) (s : State) : Option (HostState × State) :=
  match h.program[h.line]? with
  | none => none
  | some (.wr r v) => (hostValue h.names v).map fun w => (hostAdvance h, hostWrite r w s)
  | some (.rd r n) => some (hostAdvance (hostBind n (hostRead r s) h), s)
  | some .poll =>
    some (if (hostRead .status s).getLsbD 0 then hostBind statusName (hostRead .status s) h
      else hostAdvance (hostBind statusName (hostRead .status s) h), s)
  | some .clr => some (hostAdvance h, hostWrite .status 0x6#64 s)
  | some (.label _) => some (hostAdvance h, s)
  | some (.bnz n b l) =>
    (h.names.lookup n).bind fun v =>
      if v.getLsbD b then (hostJump l h).map fun h' => (h', s) else some (hostAdvance h, s)
  | some (.bz n b l) =>
    (h.names.lookup n).bind fun v =>
      if v.getLsbD b then some (hostAdvance h, s) else (hostJump l h).map fun h' => (h', s)

/-- The host executes `n` lines with no step of the core between them. -/
def hostLines : Nat → HostState × State → Option (HostState × State)
  | 0, x => some x
  | n + 1, (h, s) => (hostLineStep h s).bind (hostLines n)

/-- A host program over CORE has ended when it has executed its last line and BUSY = 0 (R100). -/
def hostEnded (h : HostState) (s : State) : Bool :=
  decide (h.program.length ≤ h.line) && !s.status.busy

/-- The pseudo-instructions of the five commands (R61). Each operand is a `<value>` of R60: an integer or a name bound by
an earlier `RD` line. -/
inductive Pseudo where
  | modexp (b e m : HostValue)
  | modmul (a b m : HostValue)
  | modinv (a m : HostValue)
  | modred (a m : HostValue)
  | crtDecrypt (c d p q : HostValue)
  deriving DecidableEq, Repr, Inhabited

/-- The command of a pseudo-instruction (R61). -/
def pseudoCommand : Pseudo → Instr
  | .modexp _ _ _ => .modexp
  | .modmul _ _ _ => .modmul
  | .modinv _ _ => .modinv
  | .modred _ _ => .modred
  | .crtDecrypt _ _ _ _ => .crtDecrypt

/-- The operand registers an expansion writes, with their values, in its order (R61). -/
def pseudoOperands : Pseudo → List (RegName × HostValue)
  | .modexp b e m => [(.opa, b), (.opb, e), (.opc, m)]
  | .modmul a b m => [(.opa, a), (.opb, b), (.opc, m)]
  | .modinv a m => [(.opa, a), (.opc, m)]
  | .modred a m => [(.opa, a), (.opc, m)]
  | .crtDecrypt c d p q => [(.opa, c), (.opb, d), (.opc, p), (.opd, q)]

/-- The end of every expansion: write the command, wait, read STATUS into name 0 (`s`) and RESULT into name 1 (`r`). -/
def pseudoTail (i : Instr) : List HostLine :=
  [.wr .cmd (.lit (opcode i).toNat), .poll, .rd .status statusName, .rd .result 1]

/-- The expansion of a pseudo-instruction: its operand writes, then the common end (R61). -/
def pseudoExpand (p : Pseudo) : List HostLine :=
  (pseudoOperands p).map (fun x => .wr x.1 x.2) ++ pseudoTail (pseudoCommand p)

/-- The host-level operations of R61, which CORE does not execute. -/
inductive HostOperation where
  | encrypt (message e n : HostValue)
  | sign (message d n : HostValue)
  | verify (message signature e n : HostValue)
  | decrypt (c d p q : HostValue)
  deriving DecidableEq, Repr, Inhabited

/-- What a host-level operation comes to: a pseudo-instruction, a RangeError the host signals itself (R61), or nothing,
because its check needs a name no earlier `RD` line has bound (log 22). -/
inductive HostExpansion where
  | run (p : Pseudo)
  | rangeError
  | unboundName
  deriving DecidableEq, Repr, Inhabited

/-- The host's own check `0 <= message < n` before a MODEXP (R61). -/
def rangeChecked (names : List (Nat × Word)) (message n : HostValue) (p : Pseudo) : HostExpansion :=
  match hostInteger names message, hostInteger names n with
  | some x, some k => if 0 ≤ x ∧ x < k then .run p else .rangeError
  | some _, none => .unboundName
  | none, some _ => .unboundName
  | none, none => .unboundName

/-- The expansion of a host-level operation, with the names bound so far (R61). -/
def hostOperationExpand (names : List (Nat × Word)) : HostOperation → HostExpansion
  | .encrypt message e n => rangeChecked names message n (.modexp message e n)
  | .sign message d n => rangeChecked names message n (.modexp message d n)
  | .verify _ signature e n => .run (.modexp signature e n)
  | .decrypt c d p q => .run (.crtDecrypt c d p q)

/-- What `verify` answers from the STATUS and RESULT read back: true exactly when the result is valid, that is
s[5:4] = 0, and equals the message (R61). DESIGN CHOICE: where the MODEXP failed, R61 says only that the result is not
valid, and `verify` answers false; it signals no error (log 27). -/
def verifyAccepts (message : Int) (status result : Word) : Bool :=
  status.extractLsb' 4 2 == 0#2 && decide (sval result = message)

end Sys2Proof.Machine
end

