-- ==== Sys2Proof/Safety.lean ====
section
/-! DEFINITION. The terms in which claims about CORE are stated: the invariant of spec/10_state.md R32, how a command
ends (R79, R80), and the part of a state that a bus master can see. -/

namespace Sys2Proof.Machine

/-- L[OP] names a command. -/
def legalInFlight (s : State) : Bool :=
  match inFlight s with
  | .command _ => true
  | .illegalOpcode _ => false

/-- A response that reports an error carries rdata = 0 (R33). -/
def responseOk : Option Response → Bool
  | none => true
  | some r => !r.err || r.rdata == 0#64

/-- The invariant of R32, with what makes it inductive: while BUSY, DONE, ERR and CAUSE are 0 and L[OP] is a legal
opcode equal to CMD.OP; ERR is the class of CAUSE; RESULT[63] = 0; an error response carries no data. -/
abbrev Inv (s : State) : Prop :=
  (s.status.busy = true → s.status.done = false ∧ s.status.err = .noError ∧ s.status.cause = .noCause)
    ∧ (s.status.busy = true → legalInFlight s = true ∧ s.latched.op = s.cmdOp)
    ∧ s.status.err = causeClass s.status.cause
    ∧ s.result.msb = false
    ∧ responseOk s.rspPending = true ∧ responseOk s.rspOut = true

/-- `t` is `s` after the in-flight command ended with result `r` (R78, R79): RESULT, BUSY, DONE, ERR and CAUSE are
written, everything else that the spec lets be seen is as it was. The unit registers, which nothing can see (R31), and
the counter of free values may change. -/
def SucceedsWith (r : Int) (s t : State) : Prop :=
  ∃ (u : Units) (n : Nat),
    t = { s with
      result := BitVec.ofInt 64 r
      status := { s.status with busy := false, done := true, err := .noError, cause := .noCause }
      units := u
      freeCount := n }

/-- `t` is `s` after the in-flight command failed with cause `c` (R78, R80): as `SucceedsWith`, but RESULT is
unchanged. -/
def FailsWith (c : Cause) (s t : State) : Prop :=
  ∃ (u : Units) (n : Nat),
    t = { s with
      status := { s.status with busy := false, done := true, err := causeClass c, cause := c }
      units := u
      freeCount := n }

/-- The two states agree on everything but the unit registers and the counter of free values. -/
def AgreeVisible (s t : State) : Prop :=
  t = { s with units := t.units, freeCount := t.freeCount }

/-- Apply a change of the state to the next state of an outcome. -/
def mapNext (f : State → State) : Host.Outcome State Fault Refusal → Host.Outcome State Fault Refusal
  | .next s => .next (f s)
  | .fault r => .fault r
  | .refused r => .refused r

/-- Other values in the four operand registers. -/
def withOperands (a b c d : Word) (s : State) : State := { s with opa := a, opb := b, opc := c, opd := d }

/-- An event that neither resets CORE nor is refused by the model: what may happen while a command is in flight. -/
def harmless : Event → Bool
  | .request a => a.fullWidth
  | .response => true
  | .core => true
  | .reset => false

/-- This step is a reset step (R92). -/
def resets (s : State) : Bool :=
  match s.schedule with
  | [] => false
  | .request _ :: _ => false
  | .response :: _ => false
  | .core :: _ => false
  | .reset :: _ => true

/-- The core's turn comes in this step (R78, log 2). -/
def coreMoves (s : State) : Bool :=
  match s.schedule with
  | [] => s.rspPending.isNone
  | .request _ :: _ => false
  | .response :: _ => false
  | .core :: _ => true
  | .reset :: _ => false

/-- The value of a write to an offset that is taken in this step; none when no such write is taken (R34, R35). -/
def takenWrite (off : Offset) (s : State) : Option Word :=
  match s.schedule with
  | [] => none
  | .request a :: _ =>
    if s.rspPending.isNone && a.fullWidth && a.write && a.addr == off then some a.wdata else none
  | .response :: _ => none
  | .core :: _ => none
  | .reset :: _ => none

/-- `t` is the completion of the command in flight in `s` (R78). -/
def CompletesInto (s t : State) : Prop :=
  ∃ (i : Instr) (u : State), decodeOp s.latched.op = .command i ∧ u.latched = s.latched ∧ exec i u = .next t

end Sys2Proof.Machine
end

