-- ==== Sys2Proof/Certificates/Slice0/Obligations.lean ====
section
/-! DEFINITION. The statements about CORE that the provers are given, in the order of spec/: reset and the invariant,
the bus, issuing a command, the five commands, completion and the interrupt, the hidden units. Each docstring names
the rule it formalises. -/

open Sys2Proof Sys2Proof.Machine

/-! ## Reset and the invariant -/

/-- The values of spec/10_state.md section 7 as the bus and the ports show them right after reset: ID is its constant,
every other register reads 0, CSTATE is IDLE, irq is 0, no response is presented; while rst = 1 no request is taken,
afterwards one can be. -/
def Obligations.ResetReadsAsTheSpecSays : Prop :=
  (∀ r : RegName, windowRead r.off State.reset = ⟨if r = .id then 0x434F524500000001#64 else 0#64, false⟩)
    ∧ cstate State.reset = .idle ∧ irq State.reset = false ∧ rspValid State.reset = false
    ∧ reqReady true State.reset = false ∧ reqReady false State.reset = true

/-- R92's reset step, from any state: every register takes its reset value, the command in flight is abandoned, and a
pending response is not delivered. L[*] and the unit registers, which R92 leaves unspecified, are not spoken of. -/
def Obligations.ResetStepClearsTheBlock : Prop :=
  ∀ (s : State) (rest : List Event), s.schedule = .reset :: rest →
    ∃ t, step s = .next t ∧ t.cmdOp = 0x00#8 ∧ t.status = ⟨false, false, false, .noError, .noCause⟩
      ∧ t.irqEn = ⟨false, false⟩ ∧ t.opa = 0#64 ∧ t.opb = 0#64 ∧ t.opc = 0#64 ∧ t.opd = 0#64 ∧ t.result = 0#64
      ∧ cstate t = .idle ∧ irq t = false ∧ t.rspPending = none ∧ t.rspOut = none ∧ t.schedule = rest
      ∧ windowRead 0x00#7 t = ⟨0x434F524500000001#64, false⟩

/-- The state after reset meets the invariant of R32. -/
def Obligations.ResetMeetsTheInvariant : Prop := Inv State.reset

/-- Every step, from any state and under any schedule, keeps the invariant of R32. -/
def Obligations.StepKeepsTheInvariant : Prop :=
  ∀ s t : State, Inv s → step s = .next t → Inv t

/-- R32: in every state a run reaches from reset, whatever the environment does, (a) to (d) hold. -/
def Obligations.ReachableStatesMeetR32 : Prop :=
  ∀ (sched : List Event) (k : Nat) (t : State),
    Host.Core.run Sys2Proof.core k ({ State.reset with schedule := sched } : State) = .next t →
      (t.status.busy = true → t.status.done = false ∧ t.status.err = .noError ∧ t.status.cause = .noCause)
        ∧ (t.status.err = .noError ↔ t.status.cause = .noCause)
        ∧ t.result.getLsbD 63 = false
        ∧ (readReg .cmd t).extractLsb' 8 56 = 0#56
        ∧ ((readReg .status t).getLsbD 3 = false ∧ (readReg .status t).extractLsb' 6 2 = 0#2
          ∧ (readReg .status t).extractLsb' 12 52 = 0#52)
        ∧ (readReg .irqEn t).extractLsb' 2 62 = 0#62

/-! ## The bus -/

/-- R35: a 64-bit request that is taken has its whole effect, and its response is computed, in one step from the state
before it. The response waits to be presented; that wait is the model's form (log 1). -/
def Obligations.RequestIsOneAtomicStep : Prop :=
  ∀ (s : State) (a : Access) (rest : List Event),
    s.schedule = .request a :: rest → s.rspPending = none → a.width = .dword →
      step s = .next { (transact a s).2 with
        schedule := rest, rspOut := none, rspPending := some (transact a s).1 }

/-- R41: the read of each mapped offset, with no change of state. -/
def Obligations.WindowReadsFollowTheTable : Prop :=
  ∀ s : State,
    transact (readAccess 0x00#7) s = (⟨0x434F524500000001#64, false⟩, s)
      ∧ transact (readAccess 0x08#7) s = (⟨s.cmdOp.setWidth 64, false⟩, s)
      ∧ transact (readAccess 0x10#7) s =
        (⟨(causeCode s.status.cause ++ 0#2 ++ errCode s.status.err ++ 0#1 ++ BitVec.ofBool s.status.overrun
            ++ BitVec.ofBool s.status.done ++ BitVec.ofBool s.status.busy).setWidth 64, false⟩, s)
      ∧ transact (readAccess 0x18#7) s =
        (⟨(BitVec.ofBool s.irqEn.overrunIe ++ BitVec.ofBool s.irqEn.doneIe).setWidth 64, false⟩, s)
      ∧ transact (readAccess 0x20#7) s = (⟨s.opa, false⟩, s)
      ∧ transact (readAccess 0x28#7) s = (⟨s.opb, false⟩, s)
      ∧ transact (readAccess 0x30#7) s = (⟨s.opc, false⟩, s)
      ∧ transact (readAccess 0x38#7) s = (⟨s.opd, false⟩, s)
      ∧ transact (readAccess 0x40#7) s = (⟨s.result, false⟩, s)

/-- R42 and R43: the write of each mapped offset but CMD (whose effect is `CmdWriteIssues`); rdata is 0. -/
def Obligations.WindowWritesFollowTheTable : Prop :=
  ∀ (s : State) (v : Word),
    transact (writeAccess 0x00#7 v) s = (⟨0#64, false⟩, s)
      ∧ transact (writeAccess 0x10#7 v) s =
        (⟨0#64, false⟩, { s with status := { s.status with
          done := if v.getLsbD 1 then false else s.status.done
          overrun := if v.getLsbD 2 then false else s.status.overrun } })
      ∧ transact (writeAccess 0x18#7 v) s =
        (⟨0#64, false⟩, { s with irqEn := ⟨v.getLsbD 0, v.getLsbD 1⟩ })
      ∧ transact (writeAccess 0x20#7 v) s = (⟨0#64, false⟩, { s with opa := v })
      ∧ transact (writeAccess 0x28#7 v) s = (⟨0#64, false⟩, { s with opb := v })
      ∧ transact (writeAccess 0x30#7 v) s = (⟨0#64, false⟩, { s with opc := v })
      ∧ transact (writeAccess 0x38#7 v) s = (⟨0#64, false⟩, { s with opd := v })
      ∧ transact (writeAccess 0x40#7 v) s = (⟨0#64, false⟩, s)

/-- R43: a write to ID or RESULT is accepted with rsp_err = 0 and has no effect. -/
def Obligations.ReadOnlyWritesAreIgnored : Prop :=
  ∀ (s : State) (a : Access), a.write = true → (a.addr = 0x00#7 ∨ a.addr = 0x40#7) →
    transact a s = (⟨0#64, false⟩, s)

/-- R39: an access is aligned when req_addr[2:0] = 0, and a misaligned access, read or write, is a bus error that
changes nothing. -/
def Obligations.MisalignedAccessIsBusError : Prop :=
  ∀ (s : State) (a : Access), a.addr.toNat % 8 ≠ 0 → transact a s = (⟨0#64, true⟩, s)

/-- R40: an aligned access to a reserved offset is a bus error that changes nothing. -/
def Obligations.ReservedOffsetIsBusError : Prop :=
  ∀ (s : State) (a : Access),
    a.addr ∈ [0x48#7, 0x50#7, 0x58#7, 0x60#7, 0x68#7, 0x70#7, 0x78#7] → transact a s = (⟨0#64, true⟩, s)

/-- R38: every access moves 64 bits; the model refuses any other and takes every one of 64 bits. -/
def Obligations.NarrowAccessIsRefused : Prop :=
  ∀ (s : State) (a : Access) (rest : List Event), s.schedule = .request a :: rest → s.rspPending = none →
    (a.width ≠ .dword → step s = .refused (.narrowAccess a.width))
      ∧ (a.width = .dword → ∃ t, step s = .next t)

/-- R45: no read has a side effect, and a read or a write of any register but CMD can be repeated with no further
effect. -/
def Obligations.AccessesButCmdWritesAreIdempotent : Prop :=
  ∀ (s : State) (a : Access), (a.write = false → (transact a s).2 = s)
    ∧ ((a.write = true → a.addr ≠ 0x08#7) → transact a (transact a s).2 = transact a s)

/-- R34: while a response is pending no request is taken; the response is presented in a later step, once, and a
reset loses it. -/
def Obligations.ResponseFollowsItsRequest : Prop :=
  (∀ s t : State, step s = .next t →
      (t.rspOut ≠ none → t.rspOut = s.rspPending ∧ t.rspPending = none)
        ∧ (s.rspPending ≠ none →
          (t.rspPending = s.rspPending ∧ t.rspOut = none) ∨ (t.rspPending = none ∧ t.rspOut = s.rspPending)
            ∨ (∃ rest, s.schedule = .reset :: rest ∧ t.rspPending = none ∧ t.rspOut = none)))
    ∧ ∀ (s : State) (a : Access) (rest : List Event) (r : Response),
      s.schedule = .request a :: rest → s.rspPending = some r →
        step s = .next { s with rspOut := some r, rspPending := none }

/-- R37: BASE is a multiple of 0x80; a platform address of the window reaches offset (address - BASE)[6:0], and no
other address reaches CORE. -/
def Obligations.PlatformAddressesMapToOffsets : Prop :=
  Config.base % 0x80 = 0 ∧ (∀ off : Offset, reqAddr (Config.base + off.toNat) = some off)
    ∧ ∀ pa : Nat, (pa < Config.base ∨ Config.base + 0x80 ≤ pa) → reqAddr pa = none

/-- R44: on a byte-addressed platform the eight bytes of a register lie at the eight addresses of its offset, each at
one of them, in whatever order PLATFORM_BYTE_ORDER says (log 12). -/
def Obligations.PlatformBytesCoverTheRegister : Prop :=
  ∀ (r : RegName) (pa : Nat),
    (Config.base + r.off.toNat ≤ pa ∧ pa < Config.base + r.off.toNat + 8) ↔ ∃! k : Fin 8, platformByteAddr r k = pa

/-! ## Issuing a command -/

/-- R53 and R59: every command's word decodes to it, whatever the reserved bits hold; a word that decodes to a command
has its opcode in [7:0]; and an opcode outside 0x01 to 0x05 is rejected by name. -/
def Obligations.DecodeAndEncodeAgree : Prop :=
  (∀ i : Instr, i.wellFormed = true → decode (encode i) = .command i
      ∧ ∀ high : BitVec 56, decode (high ++ opcode i) = .command i)
    ∧ (∀ (v : Word) (i : Instr), decode v = .command i → (encode i).toNat = v.toNat % 256)
    ∧ ∀ v : Word, (v.toNat % 256 = 0 ∨ 5 < v.toNat % 256) → decode v = .illegalOpcode (opField v)

/-- Words written out from R52 and R53. -/
def Obligations.SampleCommandWordsDecode : Prop :=
  decode 0x0000000000000001#64 = .command .modexp ∧ decode 0x0000000000000002#64 = .command .modmul
    ∧ decode 0x0000000000000003#64 = .command .modinv ∧ decode 0xFFFFFFFFFFFFFF04#64 = .command .modred
    ∧ decode 0x0000000000000005#64 = .command .crtDecrypt ∧ decode 0x0000000000000000#64 = .illegalOpcode 0x00#8
    ∧ decode 0x0000000000000106#64 = .illegalOpcode 0x06#8

/-- R56 and R57: what a CMD write does while BUSY = 1, with a legal opcode, and with an illegal one. -/
def Obligations.CmdWriteIssues : Prop :=
  ∀ (s : State) (v : Word),
    (s.status.busy = true →
      transact (writeAccess 0x08#7 v) s = (⟨0#64, false⟩, { s with status := { s.status with overrun := true } }))
    ∧ (s.status.busy = false → 1 ≤ v.toNat % 256 → v.toNat % 256 ≤ 5 →
      transact (writeAccess 0x08#7 v) s = (⟨0#64, false⟩,
        { s with
          cmdOp := BitVec.ofNat 8 v.toNat
          latched := ⟨BitVec.ofNat 8 v.toNat, s.opa, s.opb, s.opc, s.opd⟩
          status := ⟨true, false, s.status.overrun, .noError, .noCause⟩ }))
    ∧ (s.status.busy = false → (v.toNat % 256 = 0 ∨ 5 < v.toNat % 256) →
      transact (writeAccess 0x08#7 v) s = (⟨0#64, false⟩,
        { s with
          cmdOp := BitVec.ofNat 8 v.toNat
          status := ⟨false, true, s.status.overrun, .illegal, .illegalOp⟩ })
      ∧ (s.irqEn.doneIe = true → irq (transact (writeAccess 0x08#7 v) s).2 = true))

/-- R58: a CMD write of v acts exactly as a write of v[7:0], and every opcode outside 0x01 to 0x05 is illegal. -/
def Obligations.ReservedCommandBitsAreIgnored : Prop :=
  ∀ (s : State) (v : Word),
    transact (writeAccess 0x08#7 v) s = transact (writeAccess 0x08#7 (v &&& 0xFF#64)) s
      ∧ ((v.toNat % 256 = 0 ∨ 5 < v.toNat % 256) → decode v = .illegalOpcode (opField v))

/-- R60, R61 and R56: from an idle CORE, the `WR` lines of a pseudo-instruction, whose operands are integers or names
bound before, put its operands into the registers of its format and issue its command, which latches them; then the host
waits at its `POLL` line. -/
def Obligations.PseudoInstructionIssuesItsCommand : Prop :=
  ∀ (p : Pseudo) (names : List (Nat × Word)) (s : State), s.status.busy = false →
    (∀ x ∈ pseudoOperands p, (hostValue names x.2).isSome = true) →
      ∃ (h : HostState) (t : State),
        hostLines ((pseudoExpand p).length - 3) (⟨pseudoExpand p, 0, names⟩, s) = some (h, t)
          ∧ h.names = names ∧ h.program[h.line]? = some .poll ∧ t.status.busy = true
          ∧ t.status.done = false ∧ t.result = s.result ∧ t.latched.op = opcode (pseudoCommand p)
          ∧ (match p with
            | .modexp b e m => hostValue names b = some t.latched.a ∧ hostValue names e = some t.latched.b
                ∧ hostValue names m = some t.latched.c
            | .modmul a b m => hostValue names a = some t.latched.a ∧ hostValue names b = some t.latched.b
                ∧ hostValue names m = some t.latched.c
            | .modinv a m => hostValue names a = some t.latched.a ∧ hostValue names m = some t.latched.c
            | .modred a m => hostValue names a = some t.latched.a ∧ hostValue names m = some t.latched.c
            | .crtDecrypt c d p q => hostValue names c = some t.latched.a ∧ hostValue names d = some t.latched.b
                ∧ hostValue names p = some t.latched.c ∧ hostValue names q = some t.latched.d)

/-! ## A step runs the latched command -/

/-- R78: while BUSY = 1 the core's step is the command L[OP] names, on the state at that moment; while BUSY = 0 it has
none. The schedule and the response port are what the model's step adds around it (log 1). -/
def Obligations.CoreStepRunsTheLatchedCommand : Prop :=
  ∀ (s : State) (rest : List Event), s.schedule = .core :: rest →
    (∀ i : Instr, s.status.busy = true → decode (s.latched.op.setWidth 64) = .command i →
        step s = exec i { s with rspOut := none, schedule := rest })
      ∧ (s.status.busy = false → step s = .next { s with rspOut := none, schedule := rest })

/-- A command word placed for the next step (the model's own loading, log 14) is latched as an accepted CMD write
latches it, and the next step runs that command. -/
def Obligations.PlacedCommandWordRunsNext : Prop :=
  ∀ (s : State) (v : Word) (i : Instr), decode v = .command i →
    step (s.withFetchWord 64 v.toNat) = exec i { s with
      cmdOp := opcode i
      latched := ⟨opcode i, s.opa, s.opb, s.opc, s.opd⟩
      status := ⟨true, false, s.status.overrun, .noError, .noCause⟩
      rspOut := none }

/-! ## The five commands -/

/-- R62: MODEXP completes with `mod_floor(b^e, m)`, or with cause 1, 3 or 4, checked in that order. -/
def Obligations.ModexpComputesThePower : Prop :=
  opcode .modexp = 0x01#8 ∧ ∀ s : State,
    (s.latched.c.toInt ≤ 0 → ∃ t, exec .modexp s = .next t ∧ FailsWith .badModulus s t)
    ∧ (1 ≤ s.latched.c.toInt → s.latched.b.toInt < 0 → ∃ t, exec .modexp s = .next t ∧ FailsWith .negExponent s t)
    ∧ (1 ≤ s.latched.c.toInt → 0 ≤ s.latched.b.toInt → 3037000500 < s.latched.c.toInt →
        ∃ t, exec .modexp s = .next t ∧ FailsWith .modTooLarge s t)
    ∧ (1 ≤ s.latched.c.toInt → 0 ≤ s.latched.b.toInt → s.latched.c.toInt ≤ 3037000500 →
        ∃ t, exec .modexp s = .next t
          ∧ SucceedsWith (s.latched.a.toInt ^ s.latched.b.toInt.toNat % s.latched.c.toInt) s t)

/-- R65: MODEXP's result is that of e repeated multiplications of `mod_floor(b, m)` modulo m, starting from
`mod_floor(1, m)`; it lies in [0, m); and MODEXP 4, 13, 497 gives 445. -/
def Obligations.ModexpMatchesRepeatedMultiplication : Prop :=
  ∀ s : State, 1 ≤ s.latched.c.toInt → s.latched.c.toInt ≤ 3037000500 → 0 ≤ s.latched.b.toInt →
    ∃ t, exec .modexp s = .next t
      ∧ t.result.toInt =
        (fun x => x * (s.latched.a.toInt % s.latched.c.toInt) % s.latched.c.toInt)^[s.latched.b.toInt.toNat]
          (1 % s.latched.c.toInt)
      ∧ 0 ≤ t.result.toInt ∧ t.result.toInt < s.latched.c.toInt
      ∧ (s.latched.a = 4#64 → s.latched.b = 13#64 → s.latched.c = 497#64 → t.result = 445#64)

/-- R64: MODMUL completes with `mod_floor(a * b, m)`, or with cause 1 or 4, checked in that order. -/
def Obligations.ModmulMultipliesAndReduces : Prop :=
  opcode .modmul = 0x02#8 ∧ ∀ s : State,
    (s.latched.c.toInt ≤ 0 → ∃ t, exec .modmul s = .next t ∧ FailsWith .badModulus s t)
    ∧ (3037000500 < s.latched.c.toInt → ∃ t, exec .modmul s = .next t ∧ FailsWith .modTooLarge s t)
    ∧ (1 ≤ s.latched.c.toInt → s.latched.c.toInt ≤ 3037000500 →
        ∃ t, exec .modmul s = .next t
          ∧ SucceedsWith (s.latched.a.toInt * s.latched.b.toInt % s.latched.c.toInt) s t)

/-- R66: MODINV completes with the one y in [0, m) such that a' * y is 1 modulo m, or with cause 1 when m <= 0, or with
cause 2 when gcd(a', m) is not 1, where a' = mod_floor(a, m). -/
def Obligations.ModinvFindsTheInverse : Prop :=
  opcode .modinv = 0x03#8 ∧ ∀ s : State,
    (s.latched.c.toInt ≤ 0 → ∃ t, exec .modinv s = .next t ∧ FailsWith .badModulus s t)
    ∧ (1 ≤ s.latched.c.toInt → Int.gcd (s.latched.a.toInt % s.latched.c.toInt) s.latched.c.toInt ≠ 1 →
        ∃ t, exec .modinv s = .next t ∧ FailsWith .notInvertible s t)
    ∧ (1 ≤ s.latched.c.toInt → Int.gcd (s.latched.a.toInt % s.latched.c.toInt) s.latched.c.toInt = 1 →
        ∃ y t, exec .modinv s = .next t ∧ SucceedsWith y s t ∧ 0 ≤ y ∧ y < s.latched.c.toInt
          ∧ (∀ z : Int, 0 ≤ z → z < s.latched.c.toInt →
            (s.latched.a.toInt % s.latched.c.toInt * z % s.latched.c.toInt = 1 % s.latched.c.toInt ↔ z = y)))

/-- R68: for every accepted (a, m), `mod_floor(a * RESULT, m) = mod_floor(1, m)` and 0 <= RESULT < m. -/
def Obligations.ModinvResultIsAnInverse : Prop :=
  ∀ s t : State, exec .modinv s = .next t → t.status.err = .noError →
    s.latched.a.toInt * t.result.toInt % s.latched.c.toInt = 1 % s.latched.c.toInt
      ∧ 0 ≤ t.result.toInt ∧ t.result.toInt < s.latched.c.toInt

/-- R69 with R8: MODRED completes with the r in [0, m) such that m divides a - r, or with cause 1 when m <= 0. -/
def Obligations.ModredTakesTheFlooredRemainder : Prop :=
  opcode .modred = 0x04#8 ∧ ∀ s : State,
    (s.latched.c.toInt ≤ 0 → ∃ t, exec .modred s = .next t ∧ FailsWith .badModulus s t)
    ∧ (1 ≤ s.latched.c.toInt →
        ∃ r t, exec .modred s = .next t ∧ SucceedsWith r s t ∧ 0 ≤ r ∧ r < s.latched.c.toInt
          ∧ s.latched.c.toInt ∣ s.latched.a.toInt - r)

/-- R71: CRT_DECRYPT's checks in their order, and its result `a1 + p * h` in [0, n), where
`h = mod_floor(mod_floor(a2 - a1, q) * invP, q)` and invP is the one inverse of p modulo q in [0, q). That the six
intermediate values stand in DP, DQ, INVP, A1, A2 and H after the command is the model's choice (log 7, DEDUCED): the
spec lets these hidden registers hold any value (spec/93 S6). -/
def Obligations.CrtDecryptRecombines : Prop :=
  opcode .crtDecrypt = 0x05#8 ∧ ∀ (s : State) (c d p q : Int),
    c = s.latched.a.toInt → d = s.latched.b.toInt → p = s.latched.c.toInt → q = s.latched.d.toInt →
    (p ≤ 1 ∨ q ≤ 1 → ∃ t, exec .crtDecrypt s = .next t ∧ FailsWith .badModulus s t)
    ∧ (2 ≤ p → 2 ≤ q → d < 0 → ∃ t, exec .crtDecrypt s = .next t ∧ FailsWith .negExponent s t)
    ∧ (2 ≤ p → 2 ≤ q → 0 ≤ d → 3037000500 < p ∨ 3037000500 < q →
        ∃ t, exec .crtDecrypt s = .next t ∧ FailsWith .modTooLarge s t)
    ∧ (2 ≤ p → 2 ≤ q → 0 ≤ d → p ≤ 3037000500 → q ≤ 3037000500 →
        (9223372036854775807 < p * q → ∃ t, exec .crtDecrypt s = .next t ∧ FailsWith .nOverflow s t)
        ∧ (p * q ≤ 9223372036854775807 →
          (c < 0 ∨ p * q ≤ c → ∃ t, exec .crtDecrypt s = .next t ∧ FailsWith .cOutOfRange s t)
          ∧ (0 ≤ c → c < p * q →
            (Int.gcd (p % q) q ≠ 1 → ∃ t, exec .crtDecrypt s = .next t ∧ FailsWith .notInvertible s t)
            ∧ (Int.gcd (p % q) q = 1 →
              ∃ invP a1 a2 r t, exec .crtDecrypt s = .next t ∧ SucceedsWith r s t
                ∧ 0 ≤ invP ∧ invP < q
                ∧ (∀ z : Int, 0 ≤ z → z < q → (p % q * z % q = 1 % q ↔ z = invP))
                ∧ a1 = c ^ (d % (p - 1)).toNat % p ∧ a2 = c ^ (d % (q - 1)).toNat % q
                ∧ r = a1 + p * ((a2 - a1) % q * invP % q) ∧ 0 ≤ r ∧ r < p * q
                ∧ t.units.crt = ⟨BitVec.ofInt 64 (d % (p - 1)), BitVec.ofInt 64 (d % (q - 1)), BitVec.ofInt 64 invP,
                  BitVec.ofInt 64 a1, BitVec.ofInt 64 a2, BitVec.ofInt 64 ((a2 - a1) % q * invP % q)⟩))))

/-- R72: the source's recombination formula, with either remainder, gives CORE's value, which lies in [0, n). -/
def Obligations.CrtAgreesWithTheSourceFormula : Prop :=
  ∀ a1 a2 invp p q : Int, 2 ≤ p → 2 ≤ q → 0 ≤ a1 → a1 < p →
    (a1 + p * ((a2 - a1) * invp % q + q)) % (p * q) = crtRecombine a1 a2 invp p q
      ∧ (a1 + p * (((a2 - a1) * invp).tmod q + q)) % (p * q) = crtRecombine a1 a2 invp p q
      ∧ 0 ≤ crtRecombine a1 a2 invp p q ∧ crtRecombine a1 a2 invp p q < p * q

/-- R74, its part derived from R71: a successful CRT_DECRYPT's result is a1 modulo p and a2 modulo q. -/
def Obligations.CrtResultHasTheTwoHalves : Prop :=
  ∀ s t : State, exec .crtDecrypt s = .next t → t.status.err = .noError →
    t.result.toInt % s.latched.c.toInt =
        s.latched.a.toInt ^ (s.latched.b.toInt % (s.latched.c.toInt - 1)).toNat % s.latched.c.toInt
      ∧ t.result.toInt % s.latched.d.toInt =
        s.latched.a.toInt ^ (s.latched.b.toInt % (s.latched.d.toInt - 1)).toNat % s.latched.d.toInt

/-- R74, its part from general knowledge (the spec marks it so): for distinct primes p and q, outside the corner where
r divides c, d > 0 and r - 1 divides d, CRT_DECRYPT completes with `mod_floor(c^d, n)`. -/
def Obligations.CrtEqualsTheDirectPower : Prop :=
  ∀ (s : State) (p q : Nat), p.Prime → q.Prime → p ≠ q →
    s.latched.c.toInt = p → s.latched.d.toInt = q → p ≤ 3037000500 → q ≤ 3037000500 →
    p * q ≤ 9223372036854775807 → 0 ≤ s.latched.b.toInt → 0 ≤ s.latched.a.toInt → s.latched.a.toInt < p * q →
    (∀ r : Nat, r = p ∨ r = q →
      s.latched.a.toInt % r ≠ 0 ∨ s.latched.b.toInt = 0 ∨ s.latched.b.toInt % (r - 1) ≠ 0) →
    ∃ t, exec .crtDecrypt s = .next t
      ∧ SucceedsWith (s.latched.a.toInt ^ s.latched.b.toInt.toNat % (p * q)) s t

/-! ## Completion, errors and the interrupt -/

/-- R78 to R80: every command, on every state, completes in its one step: DONE = 1, BUSY = 0, ERR the class of CAUSE. -/
def Obligations.EveryCommandCompletes : Prop :=
  ∀ (i : Instr) (s : State), ∃ t, exec i s = .next t ∧ t.status.done = true ∧ t.status.busy = false
    ∧ t.status.err = causeClass t.status.cause ∧ t.status.overrun = s.status.overrun

/-- The frame of the five commands (R76, R78 to R80): every offset of the window but STATUS and RESULT reads as before,
RESULT too when the command failed; OVERRUN, the latched command, the operand and enable registers and the response
are unchanged. -/
def Obligations.CommandsChangeOnlyStatusAndResult : Prop :=
  ∀ (i : Instr) (s t : State), exec i s = .next t →
    (∀ off : Offset, off ≠ 0x10#7 → off ≠ 0x40#7 → windowRead off t = windowRead off s)
      ∧ (t.status.err ≠ .noError → windowRead 0x40#7 t = windowRead 0x40#7 s)
      ∧ t.status.overrun = s.status.overrun ∧ t.latched = s.latched ∧ t.cmdOp = s.cmdOp ∧ t.irqEn = s.irqEn
      ∧ t.opa = s.opa ∧ t.opb = s.opb ∧ t.opc = s.opc ∧ t.opd = s.opd
      ∧ t.rspPending = s.rspPending ∧ t.rspOut = s.rspOut ∧ t.schedule = s.schedule

/-- R78 and R97: the outcome is a function of the latched values; whatever the host writes to OPA to OPD while the
command runs stays there and changes nothing else. -/
def Obligations.OutcomeIgnoresOperandRegisters : Prop :=
  ∀ (i : Instr) (s : State) (a b c d : Word),
    exec i (withOperands a b c d s) = mapNext (withOperands a b c d) (exec i s)

/-- R54: the format of each command, and a latched operand outside it may hold any value. -/
def Obligations.UnreadLatchedOperandsAreIgnored : Prop :=
  (formatOf .modexp = .f3 ∧ formatOf .modmul = .f3 ∧ formatOf .modinv = .f2 ∧ formatOf .modred = .f2
      ∧ formatOf .crtDecrypt = .f4)
    ∧ ∀ (i : Instr) (s : State) (b d : Word), ∃ t t',
      exec i s = .next t
      ∧ exec i { s with latched := { s.latched with
          b := if readsB (formatOf i) then s.latched.b else b
          d := if readsD (formatOf i) then s.latched.d else d } } = .next t'
      ∧ t'.result = t.result ∧ t'.status = t.status

/-- R76: the codes and classes of the causes, and which causes each command can end with. -/
def Obligations.CausesFollowTheTable : Prop :=
  (causeCode .noCause = 0#4 ∧ causeCode .badModulus = 1#4 ∧ causeCode .notInvertible = 2#4
      ∧ causeCode .negExponent = 3#4 ∧ causeCode .modTooLarge = 4#4 ∧ causeCode .nOverflow = 5#4
      ∧ causeCode .cOutOfRange = 6#4 ∧ causeCode .illegalOp = 7#4)
    ∧ (∀ c : Cause, (causeCode c).toNat ≤ 7
      ∧ (errCode (causeClass c)).toNat =
        (if (causeCode c).toNat = 0 then 0 else if (causeCode c).toNat ≤ 2 then 1
          else if (causeCode c).toNat ≤ 6 then 2 else 3))
    ∧ ∀ (i : Instr) (s t : State), exec i s = .next t →
      (causeCode t.status.cause).toNat ∈ (match i with
        | .modexp => [0, 1, 3, 4]
        | .modmul => [0, 1, 4]
        | .modinv => [0, 1, 2]
        | .modred => [0, 1]
        | .crtDecrypt => [0, 1, 2, 3, 4, 5, 6])

/-- R24: irq is the enabled OR of DONE and OVERRUN, in every state, and 0 after reset. -/
def Obligations.IrqIsTheEnabledOr : Prop :=
  (∀ s : State, irq s = true ↔
      (s.status.done = true ∧ s.irqEn.doneIe = true) ∨ (s.status.overrun = true ∧ s.irqEn.overrunIe = true))
    ∧ irq State.reset = false

/-- R22: the reserved bits of STATUS read 0, a STATUS write changes only DONE and OVERRUN, each cleared by a 1, and a
STATUS read has no side effect. -/
def Obligations.StatusWriteClearsByOnes : Prop :=
  ∀ (s : State) (v : Word) (k : Nat),
    ((k = 3 ∨ k = 6 ∨ k = 7 ∨ 12 ≤ k) → (windowRead 0x10#7 s).rdata.getLsbD k = false)
      ∧ ((windowRead 0x10#7 (transact (writeAccess 0x10#7 v) s).2).rdata.getLsbD k =
        ((windowRead 0x10#7 s).rdata.getLsbD k && !((k = 1 ∨ k = 2) && v.getLsbD k)))
      ∧ (transact (readAccess 0x10#7) s).2 = s

/-- R23: an IRQ_EN write stores bits 0 and 1, the other bits read 0, and nothing else changes. -/
def Obligations.IrqEnKeepsTwoBits : Prop :=
  ∀ (s : State) (v : Word), ∃ e : IrqEn,
    (transact (writeAccess 0x18#7 v) s).2 = { s with irqEn := e }
      ∧ e.doneIe = v.getLsbD 0 ∧ e.overrunIe = v.getLsbD 1
      ∧ (windowRead 0x18#7 (transact (writeAccess 0x18#7 v) s).2).rdata = v &&& 0x3#64

/-- R26: RESULT is written only by a successful completion, which stores the command's result with bit 63 = 0; a failed
completion, an illegal opcode, an acceptance and every bus write leave it; reset clears it. -/
def Obligations.ResultChangesOnlyAtSuccess : Prop :=
  ∀ s t : State, step s = .next t →
    (resets s = true → t.result = 0#64)
    ∧ (resets s = false → (s.status.busy && coreMoves s) = false → t.result = s.result)
    ∧ ((s.status.busy && coreMoves s) = true → CompletesInto s t
      ∧ (t.status.err ≠ .noError → t.result = s.result)
      ∧ (t.status.err = .noError → t.result.getLsbD 63 = false
        ∧ ∃ r : Int, SucceedsWith r { s with schedule := t.schedule, rspOut := none } t))

/-- R17: BUSY after every step: set by the acceptance of a CMD write with a legal opcode, cleared by the completion of
that command and by reset, and changed by nothing else. -/
def Obligations.BusyFollowsItsRule : Prop :=
  ∀ s t : State, step s = .next t →
    t.status.busy = (!resets s && (match takenWrite 0x08#7 s with
      | some v => s.status.busy || decide (1 ≤ v.toNat % 256 ∧ v.toNat % 256 ≤ 5)
      | none => s.status.busy && !coreMoves s))

/-- R19: OVERRUN after every step: set by a CMD write that arrives while BUSY = 1, which leaves the command in flight,
its latched operands and CMD.OP alone; cleared only by a STATUS write with bit 2 = 1 and by reset. -/
def Obligations.OverrunFollowsItsRule : Prop :=
  ∀ s t : State, step s = .next t →
    t.status.overrun = (!resets s &&
      ((s.status.overrun && !(takenWrite 0x10#7 s).any fun v => v.getLsbD 2)
        || (s.status.busy && (takenWrite 0x08#7 s).isSome)))
    ∧ ((s.status.busy && (takenWrite 0x08#7 s).isSome) = true →
      t.latched = s.latched ∧ t.cmdOp = s.cmdOp ∧ t.status = { s.status with overrun := true })

/-- R18: DONE after every step: set by every completion and by the acceptance of an illegal opcode; cleared by a STATUS
write with bit 1 = 1, by the acceptance of a legal command and by reset; left by everything else. -/
def Obligations.DoneFollowsItsRule : Prop :=
  ∀ s t : State, step s = .next t →
    t.status.done = (!resets s && (match takenWrite 0x08#7 s with
      | some v => if s.status.busy then s.status.done else decide (v.toNat % 256 = 0 ∨ 5 < v.toNat % 256)
      | none => (s.status.done && !(takenWrite 0x10#7 s).any fun v => v.getLsbD 1)
          || (s.status.busy && coreMoves s)))

/-- R20: the codes of ERR, and ERR with CAUSE (R21) after every step: written by a completion, with the class and cause
of its outcome, and by the acceptance of an illegal opcode, with 3 and 7; cleared by the acceptance of a legal command
and by reset; left by everything else, a clear of DONE among them. -/
def Obligations.ErrAndCauseFollowTheirRule : Prop :=
  (errCode .noError = 0#2 ∧ errCode .domain = 1#2 ∧ errCode .range = 2#2 ∧ errCode .illegal = 3#2)
    ∧ ∀ s t : State, step s = .next t →
      (resets s = true → t.status.err = .noError ∧ t.status.cause = .noCause)
      ∧ (resets s = false →
        (∀ v, takenWrite 0x08#7 s = some v → s.status.busy = false → 1 ≤ v.toNat % 256 → v.toNat % 256 ≤ 5 →
          t.status.err = .noError ∧ t.status.cause = .noCause)
        ∧ (∀ v, takenWrite 0x08#7 s = some v → s.status.busy = false → v.toNat % 256 = 0 ∨ 5 < v.toNat % 256 →
          t.status.err = .illegal ∧ t.status.cause = .illegalOp)
        ∧ ((s.status.busy && coreMoves s) = true →
          CompletesInto s t ∧ t.status.err = causeClass t.status.cause ∧ t.status.cause ≠ .illegalOp)
        ∧ ((takenWrite 0x08#7 s = none ∨ s.status.busy = true) → (s.status.busy && coreMoves s) = false →
          t.status.err = s.status.err ∧ t.status.cause = s.status.cause))

/-- R91, R41 and R95: while BUSY = 0, a step that takes no write and no reset leaves every register as it was: CORE does
no work of its own, and a read has no effect. -/
def Obligations.IdleStepsChangeNoRegister : Prop :=
  ∀ s t : State, s.status.busy = false → step s = .next t →
    (∀ (a : Access) (rest : List Event), s.schedule = .request a :: rest → a.write = false) →
    (∀ rest, s.schedule ≠ .reset :: rest) →
      (∀ off : Offset, windowRead off t = windowRead off s)
        ∧ t.latched = s.latched ∧ t.units = s.units ∧ irq t = irq s ∧ cstate t = .idle

/-- R25: OPA to OPD after every step: each takes all 64 bits of a write to its own offset, also while BUSY = 1, reset
makes it 0, and nothing else changes it; a read returns it; and a write to one leaves the command in flight alone. -/
def Obligations.OperandRegistersFollowTheirRule : Prop :=
  ∀ s t : State, step s = .next t →
    (resets s = true → t.opa = 0#64 ∧ t.opb = 0#64 ∧ t.opc = 0#64 ∧ t.opd = 0#64)
    ∧ (resets s = false → t.opa = (takenWrite 0x20#7 s).getD s.opa ∧ t.opb = (takenWrite 0x28#7 s).getD s.opb
      ∧ t.opc = (takenWrite 0x30#7 s).getD s.opc ∧ t.opd = (takenWrite 0x38#7 s).getD s.opd)
    ∧ (windowRead 0x20#7 t = ⟨t.opa, false⟩ ∧ windowRead 0x28#7 t = ⟨t.opb, false⟩
      ∧ windowRead 0x30#7 t = ⟨t.opc, false⟩ ∧ windowRead 0x38#7 t = ⟨t.opd, false⟩)
    ∧ (((takenWrite 0x20#7 s).isSome || (takenWrite 0x28#7 s).isSome || (takenWrite 0x30#7 s).isSome
        || (takenWrite 0x38#7 s).isSome) = true → t.latched = s.latched ∧ t.status = s.status)

/-- R16: CMD.OP after every step: a CMD write that is taken while BUSY = 0 stores its opcode byte, legal or not, reset
makes it 0, and nothing else changes it; it reads back with bits [63:8] at 0; and that write issues the command. -/
def Obligations.CmdHoldsTheLastAcceptedOpcode : Prop :=
  ∀ s t : State, step s = .next t →
    t.cmdOp.toNat = (if resets s then 0 else match takenWrite 0x08#7 s with
      | some v => if s.status.busy then s.cmdOp.toNat else v.toNat % 256
      | none => s.cmdOp.toNat)
    ∧ (windowRead 0x08#7 t).rdata.toNat = t.cmdOp.toNat
    ∧ ∀ v, takenWrite 0x08#7 s = some v → t = { issue v s with
        schedule := t.schedule, rspOut := none, rspPending := some ⟨0#64, false⟩ }

/-- R78, its weak fairness in the model's form (log 2): a command in flight is completed after a bounded number of
steps, whatever the schedule holds, if no reset comes first and no access is refused. -/
def Obligations.CommandInFlightCompletes : Prop :=
  ∀ s : State, Inv s → s.status.busy = true → (∀ e ∈ s.schedule, harmless e = true) →
    ∃ (k : Nat) (t : State), k ≤ 2 * s.schedule.length + 2
      ∧ Host.Core.run Sys2Proof.core k s = .next t ∧ t.status.busy = false ∧ t.status.done = true

/-! ## The units -/

/-- R7: MAX_MOD is the largest modulus with (m - 1)^2 <= INT64_MAX, so a product of two reduced operands is
representable for every modulus up to it. -/
def Obligations.MaxModIsTheLargestSafeModulus : Prop :=
  (∀ m : Int, 1 ≤ m → ((m - 1) ^ 2 ≤ 9223372036854775807 ↔ m ≤ Config.maxMod))
    ∧ ∀ m a b : Int, m ≤ Config.maxMod → 0 ≤ a → a < m → 0 ≤ b → b < m →
      0 ≤ a * b ∧ a * b ≤ Config.int64Max ∧ 0 ≤ mulmod a b m ∧ mulmod a b m < m

/-- R63: after k bits have been consumed, EACC = mod_floor(b^(e mod 2^k), m), EB = mod_floor(b^(2^(k-1)), m) and
EE = e >> k. -/
def Obligations.ExponentiationLoopInvariant : Prop :=
  ∀ (b e m : Int) (k : Nat), 1 ≤ m → 0 ≤ e →
    ((expIter m)^[k] (expSeed b e m)).eacc = b ^ (e % 2 ^ (k + 1)).toNat % m
      ∧ ((expIter m)^[k] (expSeed b e m)).eb = b ^ 2 ^ k % m
      ∧ ((expIter m)^[k] (expSeed b e m)).ee = e / 2 ^ (k + 1)

/-- R63: the loop of the model runs long enough for every 64-bit exponent, so that MODEXP_ref gives the functional
result. -/
def Obligations.ModexpRefIsThePower : Prop :=
  ∀ b e m : Int, 1 ≤ m → 0 ≤ e → e ≤ Config.int64Max →
    (e ≠ 0 → (expRun b e m).ee = 0) ∧ modexpRef b e m = b ^ e.toNat % m

/-- R67: at exit IR1 = 0 and IR0 = gcd(a', m), for every modulus up to INT64_MAX. -/
def Obligations.EuclidLoopEndsAtTheGcd : Prop :=
  ∀ a m : Int, 1 ≤ m → m ≤ Config.int64Max →
    (invRun a m).ir1 = 0 ∧ (invRun a m).ir0 = Int.gcd (a % m) m

/-- R67: the loop keeps IR0 = IS0 * a' and IR1 = IS1 * a' modulo m; every remainder lies in [0, m]; and (from general
knowledge, as the spec marks it) every coefficient lies in [-m, m], so that the 64-bit registers hold all four
exactly. -/
def Obligations.EuclidRegistersAreExact : Prop :=
  ∀ (a m : Int) (n : Nat) (w : InvWork), 1 ≤ m → m ≤ Config.int64Max → w = invLoop n (invSeed a m) →
    w.ir0 % m = w.is0 * (a % m) % m ∧ w.ir1 % m = w.is1 * (a % m) % m
      ∧ 0 ≤ w.ir0 ∧ w.ir0 ≤ m ∧ 0 ≤ w.ir1 ∧ w.ir1 ≤ m
      ∧ -m ≤ w.is0 ∧ w.is0 ≤ m ∧ -m ≤ w.is1 ∧ w.is1 ≤ m
      ∧ sval (pattern64 w.ir0) = w.ir0 ∧ sval (pattern64 w.ir1) = w.ir1
      ∧ sval (pattern64 w.is0) = w.is0 ∧ sval (pattern64 w.is1) = w.is1

/-- R70: from any estimate that is at most K too small, at most K corrective subtractions give `mod_floor(a, m)`; the
model's free estimate is such an estimate, whatever its value (log 9). -/
def Obligations.ReductionFromAnyEstimate : Prop :=
  (∀ (a m rq : Int) (k : Nat), 1 ≤ m → rq ≤ a / m → a / m ≤ rq + k → redFromEstimate k rq a m = a % m)
    ∧ ∀ (n : Nat) (a m : Int), 1 ≤ m →
      redEstimate n a m ≤ a / m ∧ a / m ≤ redEstimate n a m + Config.reductionSlack

/-- R31, R90 and spec/93 S6: whatever the unit registers hold, and whatever the free values are, a step does the same to
everything else; so nothing a bus master can see depends on the values the model gives them (log 6, 7, 8). -/
def Obligations.HiddenUnitsAreNeverVisible : Prop :=
  ∀ (s : State) (u : Units) (n : Nat),
    (∀ t, step s = .next t →
      ∃ t', step { s with units := u, freeCount := n } = .next t' ∧ AgreeVisible t t')
    ∧ (∀ f, step s = .fault f → step { s with units := u, freeCount := n } = .fault f)
    ∧ (∀ r, step s = .refused r → step { s with units := u, freeCount := n } = .refused r)

/-- R30: nothing reads the L registers while CSTATE = IDLE, so their reset value does not matter: whatever they hold, a
step from an idle state does the same to everything else, and a command it accepts latches the same values (log 5). -/
def Obligations.LatchedCommandIsNotReadWhileIdle : Prop :=
  ∀ (s : State) (l : Latched), cstate s = .idle →
    (∀ t, step s = .next t → ∃ l', step { s with latched := l } = .next { t with latched := l' }
      ∧ (t.status.busy = true → l' = t.latched))
    ∧ (∀ r, step s = .refused r → step { s with latched := l } = .refused r)
    ∧ ∀ f, step s ≠ .fault f
end

