-- ==== Sys2Proof/Laws/Decode.lean ====
section
/-! SUPPORT. The decoder on the opcode map, and the window's registers and offsets. -/

namespace Sys2Proof

theorem decodeOp_opcode (i : Instr) : decodeOp (opcode i) = .command i := by cases i <;> rfl

theorem opField_encode (i : Instr) : opField (encode i) = opcode i := by cases i <;> rfl

/-- Everything the opcode decoder can answer (R53, R57). -/
theorem decodeOp_cases (op : Op) :
    (∃ i, decodeOp op = .command i ∧ op = opcode i) ∨ decodeOp op = .illegalOpcode op := by
  unfold decodeOp
  split
  · exact .inl ⟨.modexp, rfl, by assumption⟩
  split
  · exact .inl ⟨.modmul, rfl, by assumption⟩
  split
  · exact .inl ⟨.modinv, rfl, by assumption⟩
  split
  · exact .inl ⟨.modred, rfl, by assumption⟩
  split
  · exact .inl ⟨.crtDecrypt, rfl, by assumption⟩
  · exact .inr rfl

namespace Machine

theorem regAt_off (r : RegName) : regAt r.off = some r := by cases r <;> rfl

theorem aligned_off (r : RegName) : aligned r.off = true := by cases r <;> rfl

theorem regAt_eq_some {off : Offset} {r : RegName} (h : regAt off = some r) : off = r.off := by
  unfold regAt at h
  repeat' split at h
  all_goals first
    | (cases h; assumption)
    | cases h

theorem aligned_iff (off : Offset) : aligned off = true ↔ off.toNat % 8 = 0 := by
  simp [aligned, ← BitVec.toNat_inj]

end Machine

end Sys2Proof
end

