-- ==== Sys2Proof/Laws/State.lean ====
section
/-! SUPPORT. One lemma per field per named update of State, and per field per update of STATUS: later proofs cite these
instead of unfolding a record update. -/

namespace Sys2Proof.Machine

/-! ### `completeWith` -/

@[simp] theorem completeWith_cmdOp (r : Int) (s : State) : (completeWith r s).cmdOp = s.cmdOp := rfl
@[simp] theorem completeWith_status (r : Int) (s : State) : (completeWith r s).status = statusSucceeded s.status := rfl
@[simp] theorem completeWith_irqEn (r : Int) (s : State) : (completeWith r s).irqEn = s.irqEn := rfl
@[simp] theorem completeWith_opa (r : Int) (s : State) : (completeWith r s).opa = s.opa := rfl
@[simp] theorem completeWith_opb (r : Int) (s : State) : (completeWith r s).opb = s.opb := rfl
@[simp] theorem completeWith_opc (r : Int) (s : State) : (completeWith r s).opc = s.opc := rfl
@[simp] theorem completeWith_opd (r : Int) (s : State) : (completeWith r s).opd = s.opd := rfl
@[simp] theorem completeWith_result (r : Int) (s : State) : (completeWith r s).result = pattern64 r := rfl
@[simp] theorem completeWith_latched (r : Int) (s : State) : (completeWith r s).latched = s.latched := rfl
@[simp] theorem completeWith_units (r : Int) (s : State) : (completeWith r s).units = s.units := rfl
@[simp] theorem completeWith_rspPending (r : Int) (s : State) : (completeWith r s).rspPending = s.rspPending := rfl
@[simp] theorem completeWith_rspOut (r : Int) (s : State) : (completeWith r s).rspOut = s.rspOut := rfl
@[simp] theorem completeWith_schedule (r : Int) (s : State) : (completeWith r s).schedule = s.schedule := rfl
@[simp] theorem completeWith_freeCount (r : Int) (s : State) : (completeWith r s).freeCount = s.freeCount := rfl

/-! ### `raiseError` -/

@[simp] theorem raiseError_cmdOp (c : Cause) (s : State) : (raiseError c s).cmdOp = s.cmdOp := rfl
@[simp] theorem raiseError_status (c : Cause) (s : State) : (raiseError c s).status = statusFailed c s.status := rfl
@[simp] theorem raiseError_irqEn (c : Cause) (s : State) : (raiseError c s).irqEn = s.irqEn := rfl
@[simp] theorem raiseError_opa (c : Cause) (s : State) : (raiseError c s).opa = s.opa := rfl
@[simp] theorem raiseError_opb (c : Cause) (s : State) : (raiseError c s).opb = s.opb := rfl
@[simp] theorem raiseError_opc (c : Cause) (s : State) : (raiseError c s).opc = s.opc := rfl
@[simp] theorem raiseError_opd (c : Cause) (s : State) : (raiseError c s).opd = s.opd := rfl
@[simp] theorem raiseError_result (c : Cause) (s : State) : (raiseError c s).result = s.result := rfl
@[simp] theorem raiseError_latched (c : Cause) (s : State) : (raiseError c s).latched = s.latched := rfl
@[simp] theorem raiseError_units (c : Cause) (s : State) : (raiseError c s).units = s.units := rfl
@[simp] theorem raiseError_rspPending (c : Cause) (s : State) : (raiseError c s).rspPending = s.rspPending := rfl
@[simp] theorem raiseError_rspOut (c : Cause) (s : State) : (raiseError c s).rspOut = s.rspOut := rfl
@[simp] theorem raiseError_schedule (c : Cause) (s : State) : (raiseError c s).schedule = s.schedule := rfl
@[simp] theorem raiseError_freeCount (c : Cause) (s : State) : (raiseError c s).freeCount = s.freeCount := rfl

/-! ### `withUnits` -/

@[simp] theorem withUnits_cmdOp (u : Units) (k : Nat) (s : State) : (withUnits u k s).cmdOp = s.cmdOp := rfl
@[simp] theorem withUnits_status (u : Units) (k : Nat) (s : State) : (withUnits u k s).status = s.status := rfl
@[simp] theorem withUnits_irqEn (u : Units) (k : Nat) (s : State) : (withUnits u k s).irqEn = s.irqEn := rfl
@[simp] theorem withUnits_opa (u : Units) (k : Nat) (s : State) : (withUnits u k s).opa = s.opa := rfl
@[simp] theorem withUnits_opb (u : Units) (k : Nat) (s : State) : (withUnits u k s).opb = s.opb := rfl
@[simp] theorem withUnits_opc (u : Units) (k : Nat) (s : State) : (withUnits u k s).opc = s.opc := rfl
@[simp] theorem withUnits_opd (u : Units) (k : Nat) (s : State) : (withUnits u k s).opd = s.opd := rfl
@[simp] theorem withUnits_result (u : Units) (k : Nat) (s : State) : (withUnits u k s).result = s.result := rfl
@[simp] theorem withUnits_latched (u : Units) (k : Nat) (s : State) : (withUnits u k s).latched = s.latched := rfl
@[simp] theorem withUnits_units (u : Units) (k : Nat) (s : State) : (withUnits u k s).units = u := rfl
@[simp] theorem withUnits_rspPending (u : Units) (k : Nat) (s : State) : (withUnits u k s).rspPending = s.rspPending := rfl
@[simp] theorem withUnits_rspOut (u : Units) (k : Nat) (s : State) : (withUnits u k s).rspOut = s.rspOut := rfl
@[simp] theorem withUnits_schedule (u : Units) (k : Nat) (s : State) : (withUnits u k s).schedule = s.schedule := rfl
@[simp] theorem withUnits_freeCount (u : Units) (k : Nat) (s : State) : (withUnits u k s).freeCount = s.freeCount + k := rfl

/-! ### `acceptCommand` -/

@[simp] theorem acceptCommand_cmdOp (op : Op) (s : State) : (acceptCommand op s).cmdOp = op := rfl
@[simp] theorem acceptCommand_status (op : Op) (s : State) : (acceptCommand op s).status = statusAccepted s.status := rfl
@[simp] theorem acceptCommand_irqEn (op : Op) (s : State) : (acceptCommand op s).irqEn = s.irqEn := rfl
@[simp] theorem acceptCommand_opa (op : Op) (s : State) : (acceptCommand op s).opa = s.opa := rfl
@[simp] theorem acceptCommand_opb (op : Op) (s : State) : (acceptCommand op s).opb = s.opb := rfl
@[simp] theorem acceptCommand_opc (op : Op) (s : State) : (acceptCommand op s).opc = s.opc := rfl
@[simp] theorem acceptCommand_opd (op : Op) (s : State) : (acceptCommand op s).opd = s.opd := rfl
@[simp] theorem acceptCommand_result (op : Op) (s : State) : (acceptCommand op s).result = s.result := rfl
@[simp] theorem acceptCommand_latched (op : Op) (s : State) : (acceptCommand op s).latched = latchCommand op s := rfl
@[simp] theorem acceptCommand_units (op : Op) (s : State) : (acceptCommand op s).units = s.units := rfl
@[simp] theorem acceptCommand_rspPending (op : Op) (s : State) : (acceptCommand op s).rspPending = s.rspPending := rfl
@[simp] theorem acceptCommand_rspOut (op : Op) (s : State) : (acceptCommand op s).rspOut = s.rspOut := rfl
@[simp] theorem acceptCommand_schedule (op : Op) (s : State) : (acceptCommand op s).schedule = s.schedule := rfl
@[simp] theorem acceptCommand_freeCount (op : Op) (s : State) : (acceptCommand op s).freeCount = s.freeCount := rfl

/-! ### `illegalCommand` -/

@[simp] theorem illegalCommand_cmdOp (op : Op) (s : State) : (illegalCommand op s).cmdOp = op := rfl
@[simp] theorem illegalCommand_status (op : Op) (s : State) : (illegalCommand op s).status = statusIllegal s.status := rfl
@[simp] theorem illegalCommand_irqEn (op : Op) (s : State) : (illegalCommand op s).irqEn = s.irqEn := rfl
@[simp] theorem illegalCommand_opa (op : Op) (s : State) : (illegalCommand op s).opa = s.opa := rfl
@[simp] theorem illegalCommand_opb (op : Op) (s : State) : (illegalCommand op s).opb = s.opb := rfl
@[simp] theorem illegalCommand_opc (op : Op) (s : State) : (illegalCommand op s).opc = s.opc := rfl
@[simp] theorem illegalCommand_opd (op : Op) (s : State) : (illegalCommand op s).opd = s.opd := rfl
@[simp] theorem illegalCommand_result (op : Op) (s : State) : (illegalCommand op s).result = s.result := rfl
@[simp] theorem illegalCommand_latched (op : Op) (s : State) : (illegalCommand op s).latched = s.latched := rfl
@[simp] theorem illegalCommand_units (op : Op) (s : State) : (illegalCommand op s).units = s.units := rfl
@[simp] theorem illegalCommand_rspPending (op : Op) (s : State) : (illegalCommand op s).rspPending = s.rspPending := rfl
@[simp] theorem illegalCommand_rspOut (op : Op) (s : State) : (illegalCommand op s).rspOut = s.rspOut := rfl
@[simp] theorem illegalCommand_schedule (op : Op) (s : State) : (illegalCommand op s).schedule = s.schedule := rfl
@[simp] theorem illegalCommand_freeCount (op : Op) (s : State) : (illegalCommand op s).freeCount = s.freeCount := rfl

/-! ### `dropCommand` -/

@[simp] theorem dropCommand_cmdOp (s : State) : (dropCommand s).cmdOp = s.cmdOp := rfl
@[simp] theorem dropCommand_status (s : State) : (dropCommand s).status = statusOverrun s.status := rfl
@[simp] theorem dropCommand_irqEn (s : State) : (dropCommand s).irqEn = s.irqEn := rfl
@[simp] theorem dropCommand_opa (s : State) : (dropCommand s).opa = s.opa := rfl
@[simp] theorem dropCommand_opb (s : State) : (dropCommand s).opb = s.opb := rfl
@[simp] theorem dropCommand_opc (s : State) : (dropCommand s).opc = s.opc := rfl
@[simp] theorem dropCommand_opd (s : State) : (dropCommand s).opd = s.opd := rfl
@[simp] theorem dropCommand_result (s : State) : (dropCommand s).result = s.result := rfl
@[simp] theorem dropCommand_latched (s : State) : (dropCommand s).latched = s.latched := rfl
@[simp] theorem dropCommand_units (s : State) : (dropCommand s).units = s.units := rfl
@[simp] theorem dropCommand_rspPending (s : State) : (dropCommand s).rspPending = s.rspPending := rfl
@[simp] theorem dropCommand_rspOut (s : State) : (dropCommand s).rspOut = s.rspOut := rfl
@[simp] theorem dropCommand_schedule (s : State) : (dropCommand s).schedule = s.schedule := rfl
@[simp] theorem dropCommand_freeCount (s : State) : (dropCommand s).freeCount = s.freeCount := rfl

/-! ### `deliver` -/

@[simp] theorem deliver_cmdOp (s : State) : (deliver s).cmdOp = s.cmdOp := rfl
@[simp] theorem deliver_status (s : State) : (deliver s).status = s.status := rfl
@[simp] theorem deliver_irqEn (s : State) : (deliver s).irqEn = s.irqEn := rfl
@[simp] theorem deliver_opa (s : State) : (deliver s).opa = s.opa := rfl
@[simp] theorem deliver_opb (s : State) : (deliver s).opb = s.opb := rfl
@[simp] theorem deliver_opc (s : State) : (deliver s).opc = s.opc := rfl
@[simp] theorem deliver_opd (s : State) : (deliver s).opd = s.opd := rfl
@[simp] theorem deliver_result (s : State) : (deliver s).result = s.result := rfl
@[simp] theorem deliver_latched (s : State) : (deliver s).latched = s.latched := rfl
@[simp] theorem deliver_units (s : State) : (deliver s).units = s.units := rfl
@[simp] theorem deliver_rspPending (s : State) : (deliver s).rspPending = none := rfl
@[simp] theorem deliver_rspOut (s : State) : (deliver s).rspOut = s.rspPending := rfl
@[simp] theorem deliver_schedule (s : State) : (deliver s).schedule = s.schedule := rfl
@[simp] theorem deliver_freeCount (s : State) : (deliver s).freeCount = s.freeCount := rfl

/-! ### `beginCycle` -/

@[simp] theorem beginCycle_cmdOp (s : State) : (beginCycle s).cmdOp = s.cmdOp := rfl
@[simp] theorem beginCycle_status (s : State) : (beginCycle s).status = s.status := rfl
@[simp] theorem beginCycle_irqEn (s : State) : (beginCycle s).irqEn = s.irqEn := rfl
@[simp] theorem beginCycle_opa (s : State) : (beginCycle s).opa = s.opa := rfl
@[simp] theorem beginCycle_opb (s : State) : (beginCycle s).opb = s.opb := rfl
@[simp] theorem beginCycle_opc (s : State) : (beginCycle s).opc = s.opc := rfl
@[simp] theorem beginCycle_opd (s : State) : (beginCycle s).opd = s.opd := rfl
@[simp] theorem beginCycle_result (s : State) : (beginCycle s).result = s.result := rfl
@[simp] theorem beginCycle_latched (s : State) : (beginCycle s).latched = s.latched := rfl
@[simp] theorem beginCycle_units (s : State) : (beginCycle s).units = s.units := rfl
@[simp] theorem beginCycle_rspPending (s : State) : (beginCycle s).rspPending = s.rspPending := rfl
@[simp] theorem beginCycle_rspOut (s : State) : (beginCycle s).rspOut = none := rfl
@[simp] theorem beginCycle_schedule (s : State) : (beginCycle s).schedule = s.schedule := rfl
@[simp] theorem beginCycle_freeCount (s : State) : (beginCycle s).freeCount = s.freeCount := rfl

/-! ### `setSchedule` -/

@[simp] theorem setSchedule_cmdOp (rest : List Event) (s : State) : (setSchedule rest s).cmdOp = s.cmdOp := rfl
@[simp] theorem setSchedule_status (rest : List Event) (s : State) : (setSchedule rest s).status = s.status := rfl
@[simp] theorem setSchedule_irqEn (rest : List Event) (s : State) : (setSchedule rest s).irqEn = s.irqEn := rfl
@[simp] theorem setSchedule_opa (rest : List Event) (s : State) : (setSchedule rest s).opa = s.opa := rfl
@[simp] theorem setSchedule_opb (rest : List Event) (s : State) : (setSchedule rest s).opb = s.opb := rfl
@[simp] theorem setSchedule_opc (rest : List Event) (s : State) : (setSchedule rest s).opc = s.opc := rfl
@[simp] theorem setSchedule_opd (rest : List Event) (s : State) : (setSchedule rest s).opd = s.opd := rfl
@[simp] theorem setSchedule_result (rest : List Event) (s : State) : (setSchedule rest s).result = s.result := rfl
@[simp] theorem setSchedule_latched (rest : List Event) (s : State) : (setSchedule rest s).latched = s.latched := rfl
@[simp] theorem setSchedule_units (rest : List Event) (s : State) : (setSchedule rest s).units = s.units := rfl
@[simp] theorem setSchedule_rspPending (rest : List Event) (s : State) : (setSchedule rest s).rspPending = s.rspPending := rfl
@[simp] theorem setSchedule_rspOut (rest : List Event) (s : State) : (setSchedule rest s).rspOut = s.rspOut := rfl
@[simp] theorem setSchedule_schedule (rest : List Event) (s : State) : (setSchedule rest s).schedule = rest := rfl
@[simp] theorem setSchedule_freeCount (rest : List Event) (s : State) : (setSchedule rest s).freeCount = s.freeCount := rfl

/-! ### `withOperands` -/

@[simp] theorem withOperands_cmdOp (a b c d : Word) (s : State) : (withOperands a b c d s).cmdOp = s.cmdOp := rfl
@[simp] theorem withOperands_status (a b c d : Word) (s : State) : (withOperands a b c d s).status = s.status := rfl
@[simp] theorem withOperands_irqEn (a b c d : Word) (s : State) : (withOperands a b c d s).irqEn = s.irqEn := rfl
@[simp] theorem withOperands_opa (a b c d : Word) (s : State) : (withOperands a b c d s).opa = a := rfl
@[simp] theorem withOperands_opb (a b c d : Word) (s : State) : (withOperands a b c d s).opb = b := rfl
@[simp] theorem withOperands_opc (a b c d : Word) (s : State) : (withOperands a b c d s).opc = c := rfl
@[simp] theorem withOperands_opd (a b c d : Word) (s : State) : (withOperands a b c d s).opd = d := rfl
@[simp] theorem withOperands_result (a b c d : Word) (s : State) : (withOperands a b c d s).result = s.result := rfl
@[simp] theorem withOperands_latched (a b c d : Word) (s : State) : (withOperands a b c d s).latched = s.latched := rfl
@[simp] theorem withOperands_units (a b c d : Word) (s : State) : (withOperands a b c d s).units = s.units := rfl
@[simp] theorem withOperands_rspPending (a b c d : Word) (s : State) : (withOperands a b c d s).rspPending = s.rspPending := rfl
@[simp] theorem withOperands_rspOut (a b c d : Word) (s : State) : (withOperands a b c d s).rspOut = s.rspOut := rfl
@[simp] theorem withOperands_schedule (a b c d : Word) (s : State) : (withOperands a b c d s).schedule = s.schedule := rfl
@[simp] theorem withOperands_freeCount (a b c d : Word) (s : State) : (withOperands a b c d s).freeCount = s.freeCount := rfl

/-! ### `resetCore` -/

@[simp] theorem resetCore_cmdOp (s : State) : (resetCore s).cmdOp = 0x00#8 := rfl
@[simp] theorem resetCore_status (s : State) : (resetCore s).status = Status.zero := rfl
@[simp] theorem resetCore_irqEn (s : State) : (resetCore s).irqEn = ⟨false, false⟩ := rfl
@[simp] theorem resetCore_opa (s : State) : (resetCore s).opa = 0#64 := rfl
@[simp] theorem resetCore_opb (s : State) : (resetCore s).opb = 0#64 := rfl
@[simp] theorem resetCore_opc (s : State) : (resetCore s).opc = 0#64 := rfl
@[simp] theorem resetCore_opd (s : State) : (resetCore s).opd = 0#64 := rfl
@[simp] theorem resetCore_result (s : State) : (resetCore s).result = 0#64 := rfl
@[simp] theorem resetCore_latched (s : State) : (resetCore s).latched = ⟨0x00#8, 0#64, 0#64, 0#64, 0#64⟩ := rfl
@[simp] theorem resetCore_units (s : State) : (resetCore s).units = Units.zero := rfl
@[simp] theorem resetCore_rspPending (s : State) : (resetCore s).rspPending = none := rfl
@[simp] theorem resetCore_rspOut (s : State) : (resetCore s).rspOut = none := rfl
@[simp] theorem resetCore_schedule (s : State) : (resetCore s).schedule = s.schedule := rfl
@[simp] theorem resetCore_freeCount (s : State) : (resetCore s).freeCount = s.freeCount := rfl

/-! ### `statusSucceeded` -/

@[simp] theorem statusSucceeded_busy (st : Status) : (statusSucceeded st).busy = false := rfl
@[simp] theorem statusSucceeded_done (st : Status) : (statusSucceeded st).done = true := rfl
@[simp] theorem statusSucceeded_overrun (st : Status) : (statusSucceeded st).overrun = st.overrun := rfl
@[simp] theorem statusSucceeded_err (st : Status) : (statusSucceeded st).err = .noError := rfl
@[simp] theorem statusSucceeded_cause (st : Status) : (statusSucceeded st).cause = .noCause := rfl

/-! ### `statusFailed` -/

@[simp] theorem statusFailed_busy (c : Cause) (st : Status) : (statusFailed c st).busy = false := rfl
@[simp] theorem statusFailed_done (c : Cause) (st : Status) : (statusFailed c st).done = true := rfl
@[simp] theorem statusFailed_overrun (c : Cause) (st : Status) : (statusFailed c st).overrun = st.overrun := rfl
@[simp] theorem statusFailed_err (c : Cause) (st : Status) : (statusFailed c st).err = causeClass c := rfl
@[simp] theorem statusFailed_cause (c : Cause) (st : Status) : (statusFailed c st).cause = c := rfl

/-! ### `statusAccepted` -/

@[simp] theorem statusAccepted_busy (st : Status) : (statusAccepted st).busy = true := rfl
@[simp] theorem statusAccepted_done (st : Status) : (statusAccepted st).done = false := rfl
@[simp] theorem statusAccepted_overrun (st : Status) : (statusAccepted st).overrun = st.overrun := rfl
@[simp] theorem statusAccepted_err (st : Status) : (statusAccepted st).err = .noError := rfl
@[simp] theorem statusAccepted_cause (st : Status) : (statusAccepted st).cause = .noCause := rfl

/-! ### `statusIllegal` -/

@[simp] theorem statusIllegal_busy (st : Status) : (statusIllegal st).busy = st.busy := rfl
@[simp] theorem statusIllegal_done (st : Status) : (statusIllegal st).done = true := rfl
@[simp] theorem statusIllegal_overrun (st : Status) : (statusIllegal st).overrun = st.overrun := rfl
@[simp] theorem statusIllegal_err (st : Status) : (statusIllegal st).err = .illegal := rfl
@[simp] theorem statusIllegal_cause (st : Status) : (statusIllegal st).cause = .illegalOp := rfl

/-! ### `statusOverrun` -/

@[simp] theorem statusOverrun_busy (st : Status) : (statusOverrun st).busy = st.busy := rfl
@[simp] theorem statusOverrun_done (st : Status) : (statusOverrun st).done = st.done := rfl
@[simp] theorem statusOverrun_overrun (st : Status) : (statusOverrun st).overrun = true := rfl
@[simp] theorem statusOverrun_err (st : Status) : (statusOverrun st).err = st.err := rfl
@[simp] theorem statusOverrun_cause (st : Status) : (statusOverrun st).cause = st.cause := rfl

/-! ### `statusW1c` -/

@[simp] theorem statusW1c_busy (v : Word) (st : Status) : (statusW1c v st).busy = st.busy := rfl
@[simp] theorem statusW1c_done (v : Word) (st : Status) : (statusW1c v st).done = (st.done && !v.getLsbD 1) := rfl
@[simp] theorem statusW1c_overrun (v : Word) (st : Status) : (statusW1c v st).overrun = (st.overrun && !v.getLsbD 2) := rfl
@[simp] theorem statusW1c_err (v : Word) (st : Status) : (statusW1c v st).err = st.err := rfl
@[simp] theorem statusW1c_cause (v : Word) (st : Status) : (statusW1c v st).cause = st.cause := rfl

end Sys2Proof.Machine
end

