-- ==== Sys2Proof/Laws/Ops.lean ====
section
/-! SUPPORT. For each shared operation, everything it can do, said once: later proofs cite these instead of unfolding
the operation. -/

namespace Sys2Proof.Machine

/-! ## Issue and the register window -/

/-- The three things a CMD write can do (R56, R57, R19). -/
theorem issue_cases (v : Word) (s : State) :
    (s.status.busy = true ∧ issue v s = dropCommand s)
      ∨ (s.status.busy = false ∧ (∃ i, decode v = .command i ∧ opField v = opcode i)
          ∧ issue v s = acceptCommand (opField v) s)
      ∨ (s.status.busy = false ∧ decode v = .illegalOpcode (opField v)
          ∧ issue v s = illegalCommand (opField v) s) := by
  unfold issue
  cases hb : s.status.busy with
  | true => exact .inl ⟨rfl, by simp⟩
  | false =>
    rcases decodeOp_cases (opField v) with ⟨i, hi, ho⟩ | hi
    · exact .inr (.inl ⟨rfl, ⟨i, hi, ho⟩, by simp [decode, hi]⟩)
    · exact .inr (.inr ⟨rfl, hi, by simp [decode, hi]⟩)

/-- A transaction is a bus error with no effect, a read with no effect, or a write of one register (R39 to R43). -/
theorem transact_cases (a : Access) (s : State) :
    transact a s = (busError, s)
      ∨ (∃ r, a.addr = r.off ∧ a.write = false ∧ transact a s = (⟨readReg r s, false⟩, s))
      ∨ (∃ r, a.addr = r.off ∧ a.write = true ∧ transact a s = (⟨0#64, false⟩, writeReg r a.wdata s)) := by
  unfold transact
  cases ha : aligned a.addr with
  | false => exact .inl rfl
  | true =>
    cases hr : regAt a.addr with
    | none => exact .inl rfl
    | some r =>
      cases hw : a.write with
      | false => exact .inr (.inl ⟨r, regAt_eq_some hr, rfl, rfl⟩)
      | true => exact .inr (.inr ⟨r, regAt_eq_some hr, rfl, rfl⟩)

theorem transact_read (r : RegName) (s : State) :
    transact (readAccess r.off) s = (⟨readReg r s, false⟩, s) := by
  simp [transact, readAccess, aligned_off, regAt_off]

theorem transact_write (r : RegName) (v : Word) (s : State) :
    transact (writeAccess r.off v) s = (⟨0#64, false⟩, writeReg r v s) := by
  simp [transact, writeAccess, aligned_off, regAt_off]

theorem responseOk_transact (a : Access) (s : State) : responseOk (some (transact a s).1) = true := by
  rcases transact_cases a s with h | ⟨r, -, -, h⟩ | ⟨r, -, -, h⟩ <;> simp [h, responseOk, busError]

/-- What a register write leaves alone, whichever register and whatever value: RESULT, the units, the response and the
model's own fields (R42). -/
theorem writeReg_frame (r : RegName) (v : Word) (s : State) :
    (writeReg r v s).result = s.result ∧ (writeReg r v s).units = s.units
      ∧ (writeReg r v s).rspPending = s.rspPending ∧ (writeReg r v s).rspOut = s.rspOut
      ∧ (writeReg r v s).schedule = s.schedule ∧ (writeReg r v s).freeCount = s.freeCount := by
  cases r <;> simp only [writeReg, and_self]
  rcases issue_cases v s with ⟨-, h⟩ | ⟨-, -, h⟩ | ⟨-, -, h⟩ <;> simp [h]

theorem takeRequest_next {a : Access} {s t : State} (h : takeRequest a s = .next t) :
    a.fullWidth = true ∧ t = { (transact a s).2 with rspPending := some (transact a s).1 } := by
  unfold takeRequest at h
  split at h
  · exact ⟨by assumption, by simpa using h.symm⟩
  · cases h

/-- A request is taken, or the pending response comes first (R34). -/
theorem requestTurn_next {a : Access} {rest : List Event} {s t : State} (h : requestTurn a rest s = .next t) :
    (s.rspPending = none ∧ takeRequest a (setSchedule rest s) = .next t)
      ∨ (s.rspPending ≠ none ∧ t = deliver s) := by
  unfold requestTurn at h
  cases hp : s.rspPending with
  | none => exact .inl ⟨rfl, by simpa [reqReady, hp] using h⟩
  | some r => exact .inr ⟨by simp, by simpa [reqReady, hp] using h.symm⟩

/-! ## How a command ends -/

theorem raiseError_failsWith (c : Cause) (s : State) : FailsWith c s (raiseError c s) := ⟨s.units, s.freeCount, rfl⟩

theorem raiseError_withUnits_failsWith (c : Cause) (u : Units) (k : Nat) (s : State) :
    FailsWith c s (raiseError c (withUnits u k s)) := ⟨u, s.freeCount + k, rfl⟩

theorem completeWith_succeedsWith (r : Int) (u : Units) (k : Nat) (s : State) :
    SucceedsWith r s (completeWith r (withUnits u k s)) := ⟨u, s.freeCount + k, rfl⟩

theorem execModexp_ends (s : State) :
    ∃ t, execModexp s = .next t ∧
      ((opC s ≤ 0 ∧ FailsWith .badModulus s t)
        ∨ (0 < opC s ∧ opB s < 0 ∧ FailsWith .negExponent s t)
        ∨ (0 < opC s ∧ 0 ≤ opB s ∧ Config.maxMod < opC s ∧ FailsWith .modTooLarge s t)
        ∨ (0 < opC s ∧ 0 ≤ opB s ∧ opC s ≤ Config.maxMod
            ∧ SucceedsWith (modexpRef (opA s) (opB s) (opC s)) s t)) := by
  unfold execModexp
  split
  · exact ⟨_, rfl, .inl ⟨by assumption, raiseError_failsWith _ _⟩⟩
  split
  · exact ⟨_, rfl, .inr (.inl ⟨by omega, by assumption, raiseError_failsWith _ _⟩)⟩
  split
  · exact ⟨_, rfl, .inr (.inr (.inl ⟨by omega, by omega, by assumption, raiseError_failsWith _ _⟩))⟩
  · exact ⟨_, rfl, .inr (.inr (.inr ⟨by omega, by omega, by omega, completeWith_succeedsWith _ _ _ _⟩))⟩

theorem execModmul_ends (s : State) :
    ∃ t, execModmul s = .next t ∧
      ((opC s ≤ 0 ∧ FailsWith .badModulus s t)
        ∨ (0 < opC s ∧ Config.maxMod < opC s ∧ FailsWith .modTooLarge s t)
        ∨ (0 < opC s ∧ opC s ≤ Config.maxMod
            ∧ SucceedsWith (mulmod (modFloor (opA s) (opC s)) (modFloor (opB s) (opC s)) (opC s)) s t)) := by
  unfold execModmul
  split
  · exact ⟨_, rfl, .inl ⟨by assumption, raiseError_failsWith _ _⟩⟩
  split
  · exact ⟨_, rfl, .inr (.inl ⟨by omega, by assumption, raiseError_failsWith _ _⟩)⟩
  · exact ⟨_, rfl, .inr (.inr ⟨by omega, by omega, completeWith_succeedsWith _ _ _ _⟩)⟩

theorem execModinv_ends (s : State) :
    ∃ t, execModinv s = .next t ∧
      ((opC s ≤ 0 ∧ FailsWith .badModulus s t)
        ∨ (0 < opC s ∧ modinvRef (opA s) (opC s) = none ∧ FailsWith .notInvertible s t)
        ∨ (0 < opC s ∧ ∃ y, modinvRef (opA s) (opC s) = some y ∧ SucceedsWith y s t)) := by
  unfold execModinv
  split
  · exact ⟨_, rfl, .inl ⟨by assumption, raiseError_failsWith _ _⟩⟩
  cases hy : modinvRef (opA s) (opC s) with
  | none => exact ⟨_, rfl, .inr (.inl ⟨by omega, rfl, raiseError_withUnits_failsWith _ _ _ _⟩)⟩
  | some y => exact ⟨_, rfl, .inr (.inr ⟨by omega, y, rfl, completeWith_succeedsWith _ _ _ _⟩)⟩

theorem execModred_ends (s : State) :
    ∃ t, execModred s = .next t ∧
      ((opC s ≤ 0 ∧ FailsWith .badModulus s t)
        ∨ (0 < opC s ∧ SucceedsWith (modFloor (opA s) (opC s)) s t)) := by
  unfold execModred
  split
  · exact ⟨_, rfl, .inl ⟨by assumption, raiseError_failsWith _ _⟩⟩
  · exact ⟨_, rfl, .inr ⟨by omega, completeWith_succeedsWith _ _ _ _⟩⟩

/-- The conditions under which CRT_DECRYPT passes the checks before the inversion (R71). -/
abbrev CrtInRange (c d p q : Int) : Prop :=
  1 < p ∧ 1 < q ∧ 0 ≤ d ∧ p ≤ Config.maxMod ∧ q ≤ Config.maxMod ∧ p * q ≤ Config.int64Max ∧ 0 ≤ c ∧ c < p * q

theorem crtDecrypt_ends (c d p q : Int) (s : State) :
    ((p ≤ 1 ∨ q ≤ 1) ∧ FailsWith .badModulus s (crtDecrypt c d p q s))
      ∨ (1 < p ∧ 1 < q ∧ d < 0 ∧ FailsWith .negExponent s (crtDecrypt c d p q s))
      ∨ (1 < p ∧ 1 < q ∧ 0 ≤ d ∧ (Config.maxMod < p ∨ Config.maxMod < q)
          ∧ FailsWith .modTooLarge s (crtDecrypt c d p q s))
      ∨ (1 < p ∧ 1 < q ∧ 0 ≤ d ∧ p ≤ Config.maxMod ∧ q ≤ Config.maxMod ∧ Config.int64Max < p * q
          ∧ FailsWith .nOverflow s (crtDecrypt c d p q s))
      ∨ (1 < p ∧ 1 < q ∧ 0 ≤ d ∧ p ≤ Config.maxMod ∧ q ≤ Config.maxMod ∧ p * q ≤ Config.int64Max
          ∧ (c < 0 ∨ p * q ≤ c) ∧ FailsWith .cOutOfRange s (crtDecrypt c d p q s))
      ∨ (CrtInRange c d p q ∧ modinvRef p q = none ∧ FailsWith .notInvertible s (crtDecrypt c d p q s))
      ∨ (CrtInRange c d p q ∧ ∃ y, modinvRef p q = some y
          ∧ SucceedsWith (crtResult c d p q y) s (crtDecrypt c d p q s)
          ∧ (crtDecrypt c d p q s).units = crtUnits c d p q y s) := by
  unfold crtDecrypt
  split
  · exact .inl ⟨by assumption, raiseError_failsWith _ _⟩
  split
  · exact .inr (.inl ⟨by omega, by omega, by assumption, raiseError_failsWith _ _⟩)
  split
  · exact .inr (.inr (.inl ⟨by omega, by omega, by omega, by assumption, raiseError_failsWith _ _⟩))
  split
  · exact .inr (.inr (.inr (.inl
      ⟨by omega, by omega, by omega, by omega, by omega, by assumption, raiseError_failsWith _ _⟩)))
  split
  · exact .inr (.inr (.inr (.inr (.inl
      ⟨by omega, by omega, by omega, by omega, by omega, by omega, by assumption, raiseError_failsWith _ _⟩))))
  have hr : CrtInRange c d p q := by refine ⟨?_, ?_, ?_, ?_, ?_, ?_, ?_, ?_⟩ <;> omega
  cases hy : modinvRef p q with
  | none =>
    exact .inr (.inr (.inr (.inr (.inr (.inl ⟨hr, rfl, raiseError_withUnits_failsWith _ _ _ _⟩)))))
  | some y =>
    exact .inr (.inr (.inr (.inr (.inr (.inr ⟨hr, y, rfl, completeWith_succeedsWith _ _ _ _, rfl⟩)))))

/-- Every command ends, with a cause or with a result (R78 to R80). -/
theorem exec_ends (i : Instr) (s : State) :
    ∃ t, exec i s = .next t ∧ ((∃ c, c ≠ .noCause ∧ FailsWith c s t) ∨ ∃ r, SucceedsWith r s t) := by
  cases i with
  | modexp =>
    obtain ⟨t, ht, h⟩ := execModexp_ends s
    refine ⟨t, ht, ?_⟩
    rcases h with ⟨-, h⟩ | ⟨-, -, h⟩ | ⟨-, -, -, h⟩ | ⟨-, -, -, h⟩
    · exact .inl ⟨_, by decide, h⟩
    · exact .inl ⟨_, by decide, h⟩
    · exact .inl ⟨_, by decide, h⟩
    · exact .inr ⟨_, h⟩
  | modmul =>
    obtain ⟨t, ht, h⟩ := execModmul_ends s
    refine ⟨t, ht, ?_⟩
    rcases h with ⟨-, h⟩ | ⟨-, -, h⟩ | ⟨-, -, h⟩
    · exact .inl ⟨_, by decide, h⟩
    · exact .inl ⟨_, by decide, h⟩
    · exact .inr ⟨_, h⟩
  | modinv =>
    obtain ⟨t, ht, h⟩ := execModinv_ends s
    refine ⟨t, ht, ?_⟩
    rcases h with ⟨-, h⟩ | ⟨-, -, h⟩ | ⟨-, y, -, h⟩
    · exact .inl ⟨_, by decide, h⟩
    · exact .inl ⟨_, by decide, h⟩
    · exact .inr ⟨_, h⟩
  | modred =>
    obtain ⟨t, ht, h⟩ := execModred_ends s
    refine ⟨t, ht, ?_⟩
    rcases h with ⟨-, h⟩ | ⟨-, h⟩
    · exact .inl ⟨_, by decide, h⟩
    · exact .inr ⟨_, h⟩
  | crtDecrypt =>
    refine ⟨_, rfl, ?_⟩
    rcases crtDecrypt_ends (opA s) (opB s) (opC s) (opD s) s with
      ⟨-, h⟩ | ⟨-, -, -, h⟩ | ⟨-, -, -, -, h⟩ | ⟨-, -, -, -, -, -, h⟩ | ⟨-, -, -, -, -, -, -, h⟩ | ⟨-, -, h⟩ |
      ⟨-, y, -, h, -⟩
    · exact .inl ⟨_, by decide, h⟩
    · exact .inl ⟨_, by decide, h⟩
    · exact .inl ⟨_, by decide, h⟩
    · exact .inl ⟨_, by decide, h⟩
    · exact .inl ⟨_, by decide, h⟩
    · exact .inl ⟨_, by decide, h⟩
    · exact .inr ⟨_, h⟩

/-! ## The core's turn and the step -/

/-- The core's turn completes the command in flight, or changes nothing while BUSY = 0 (R78). -/
theorem coreTurn_next {s t : State} (h : coreTurn s = .next t) :
    (s.status.busy = true ∧ ∃ i, inFlight s = .command i ∧ exec i s = .next t) ∨ (s.status.busy = false ∧ t = s) := by
  unfold coreTurn at h
  cases hb : s.status.busy with
  | false => exact .inr ⟨rfl, by simpa [hb] using h.symm⟩
  | true =>
    simp only [hb, if_true] at h
    cases hi : inFlight s with
    | command i => exact .inl ⟨rfl, i, rfl, by simpa [hi] using h⟩
    | illegalOpcode op => simp [hi] at h

/-- Everything a step that answers a next state can do (R13, R34, R47). -/
theorem step_cases {s t : State} (h : step s = .next t) :
    (∃ a rest, s.schedule = .request a :: rest ∧ s.rspPending = none
        ∧ takeRequest a (setSchedule rest (beginCycle s)) = .next t)
      ∨ (((∃ a rest, s.schedule = .request a :: rest) ∨ s.schedule = []) ∧ s.rspPending ≠ none
          ∧ t = deliver (beginCycle s))
      ∨ (∃ rest, s.schedule = .response :: rest ∧ t = deliver (setSchedule rest (beginCycle s)))
      ∨ (∃ rest, s.schedule = .core :: rest ∧ coreTurn (setSchedule rest (beginCycle s)) = .next t)
      ∨ (s.schedule = [] ∧ s.rspPending = none ∧ coreTurn (beginCycle s) = .next t)
      ∨ (∃ rest, s.schedule = .reset :: rest ∧ t = resetCore (setSchedule rest (beginCycle s))) := by
  unfold step at h
  cases hs : s.schedule with
  | nil =>
    rw [hs] at h
    unfold restTurn at h
    cases hp : s.rspPending with
    | none => exact .inr (.inr (.inr (.inr (.inl ⟨rfl, rfl, by simpa [reqReady, hp] using h⟩))))
    | some r =>
      exact .inr (.inl ⟨.inr rfl, by simp, by simpa [reqReady, hp] using h.symm⟩)
  | cons e rest =>
    rw [hs] at h
    cases e with
    | request a =>
      rcases requestTurn_next h with ⟨hp, ht⟩ | ⟨hp, ht⟩
      · exact .inl ⟨a, rest, rfl, hp, ht⟩
      · exact .inr (.inl ⟨.inl ⟨a, rest, rfl⟩, hp, ht⟩)
    | response => exact .inr (.inr (.inl ⟨rest, rfl, by simpa using h.symm⟩))
    | core => exact .inr (.inr (.inr (.inl ⟨rest, rfl, h⟩)))
    | reset => exact .inr (.inr (.inr (.inr (.inr ⟨rest, rfl, by simpa using h.symm⟩))))

end Sys2Proof.Machine
end

