-- ==== Sys2Proof/Laws/HostProgram.lean ====
section
/-! SUPPORT. What the host's reads and writes are on the register window, and what one `WR` line does. -/

namespace Sys2Proof.Machine

theorem hostWrite_eq (r : RegName) (v : Word) (s : State) : hostWrite r v s = writeReg r v s := by
  rw [hostWrite, transact_write]

theorem hostRead_eq (r : RegName) (s : State) : hostRead r s = readReg r s := by
  rw [hostRead, transact_read]

/-- A `WR` line whose value is known writes that register and goes on to the next line (R60). -/
theorem hostLines_wr {h : HostState} {r : RegName} {v : HostValue} {w : Word} (n : Nat) (s : State)
    (hl : h.program[h.line]? = some (.wr r v)) (hv : hostValue h.names v = some w) :
    hostLines (n + 1) (h, s) = hostLines n (hostAdvance h, writeReg r w s) := by
  simp [hostLines, hostLineStep, hl, hv, hostWrite_eq]

end Sys2Proof.Machine
end

