-- ==== Sys2Proof/Laws/PerInstr.lean ====
section
/-! SUPPORT. The statements made per command: the word the encoder writes is well formed and holds the row's match value
under the row's mask (spec/opcode_table.json). -/

namespace Sys2Proof.Laws.CommandWord

/-- The encoder's word: bits [63:8] are 0, the opcode is legal, and under the mask 0xFF it is the row's match value. -/
def Statement (i : Instr) : Prop :=
  wordWellFormed (encode i) = true ∧ encode i &&& 0xFF#64 = (opcode i).setWidth 64

theorem modexp : Statement .modexp := ⟨by decide, by decide⟩

theorem modmul : Statement .modmul := ⟨by decide, by decide⟩

theorem modinv : Statement .modinv := ⟨by decide, by decide⟩

theorem modred : Statement .modred := ⟨by decide, by decide⟩

theorem crtDecrypt : Statement .crtDecrypt := ⟨by decide, by decide⟩

end Sys2Proof.Laws.CommandWord
end

