-- ==== Sys2Proof/Laws/Units.lean ====
section
/-! SUPPORT. Facts about the integer functions and the loops of the units: ranges, exactness of the 64-bit patterns, and
what the bounded loops of the model do. -/

namespace Sys2Proof.Machine

/-! ## Integers and 64-bit patterns -/

theorem modFloor_range (a : Int) {m : Int} (hm : 1 ≤ m) : 0 ≤ modFloor a m ∧ modFloor a m < m :=
  ⟨Int.emod_nonneg _ (by omega), Int.emod_lt_of_pos _ (by omega)⟩

/-- Reducing the factors first changes no product (R64, corner (d)). -/
theorem mulmod_modFloor (a b m : Int) : mulmod (modFloor a m) (modFloor b m) m = modFloor (a * b) m :=
  (Int.mul_emod a b m).symm

theorem sval_le_int64Max (v : Word) : sval v ≤ Config.int64Max := by
  have := v.toInt_lt
  simp only [sval, Config.int64Max] at this ⊢
  norm_num at this
  omega

theorem int64Min_le_sval (v : Word) : Config.int64Min ≤ sval v := by
  have := v.le_toInt
  simp only [sval, Config.int64Min] at this ⊢
  norm_num at this
  omega

/-- A representable integer is read back from its pattern (R5). -/
theorem sval_pattern64 {r : Int} (h0 : Config.int64Min ≤ r) (h1 : r ≤ Config.int64Max) : sval (pattern64 r) = r := by
  simp only [Config.int64Min, Config.int64Max] at h0 h1
  rw [sval, pattern64, BitVec.toInt_ofInt, Int.bmod_eq_of_le] <;> norm_num <;> omega

/-! ## The exponentiation loop -/

/-- With fuel for every bit of EE, the loop is some number of turns and ends with EE = 0 (R63). -/
theorem expLoop_iterate (m : Int) : ∀ (n : Nat) (w : ExpWork), 0 ≤ w.ee → w.ee < 2 ^ n →
    ∃ k, expLoop m n w = (expIter m)^[k] w ∧ (expLoop m n w).ee = 0
  | 0, w, h0, h1 => ⟨0, rfl, by simp only [expLoop]; simp at h1; omega⟩
  | n + 1, w, h0, h1 => by
    unfold expLoop
    split
    · exact ⟨0, rfl, by assumption⟩
    · obtain ⟨k, hk, he⟩ := expLoop_iterate m n (expIter m w) (by simp only [expIter, divFloor]; omega)
        (by simp only [expIter, divFloor]; rw [pow_succ] at h1; omega)
      exact ⟨k + 1, by rw [Function.iterate_succ_apply, hk], he⟩

/-! ## Euclid's loop -/

/-- The new IR1 is the remainder of the old IR0 by the old IR1 (R67). -/
theorem invIter_ir1 (w : InvWork) : (invIter w).ir1 = w.ir0 % w.ir1 := by
  simp only [invIter, divFloor]
  rw [Int.emod_def]
  ring

/-- What every turn keeps, the loop keeps (R67). -/
theorem invLoop_keeps (P : InvWork → Prop) (hP : ∀ w, w.ir1 ≠ 0 → P w → P (invIter w)) :
    ∀ n w, P w → P (invLoop n w)
  | 0, _, h => h
  | n + 1, w, h => by
    unfold invLoop
    split
    · exact h
    · exact invLoop_keeps P hP n _ (hP w (by assumption) h)

/-! ## The subtract phase -/

/-- With k corrections allowed, a remainder below (k + 1) * m is reduced to its floored remainder (R70). -/
theorem redCorrect_eq_mod (m : Int) (hm : 1 ≤ m) :
    ∀ (k : Nat) (x : Int), 0 ≤ x → x < (k + 1) * m → redCorrect m k x = x % m
  | 0, x, h0, h1 => by rw [redCorrect]; exact (Int.emod_eq_of_lt h0 (by simpa using h1)).symm
  | k + 1, x, h0, h1 => by
    unfold redCorrect
    split
    · rw [redCorrect_eq_mod m hm k (x - m) (by omega) (by push_cast at h1; nlinarith), Int.sub_emod_right]
    · exact (Int.emod_eq_of_lt h0 (by omega)).symm

/-! ## Runs -/

/-- A run of k + 1 steps whose first step answers next goes on from there. -/
theorem run_succ_of_step {s s' : State} (h : step s = .next s') (k : Nat) :
    Host.Core.run Sys2Proof.core (k + 1) s = Host.Core.run Sys2Proof.core k s' := by
  simp only [Host.Core.run]
  rw [show Sys2Proof.core.step s = .next s' from h]

end Sys2Proof.Machine
end

