-- ==== Sys2Proof/Tests/Slice0.lean ====
section
/-! SUPPORT. The model's own tests. Expected values come from spec/95_test_vectors.md (named by its vector numbers) or from
the rule named. After them, for each statement of Certificates/Slice0/Obligations.lean that has hypotheses, concrete
states and operands that meet them, clause by clause. -/

namespace Sys2Proof.Machine

/-! ## Helpers -/

/-- A command in flight with the latched operands a, b, c, d, the core's turn next. -/
def loaded (i : Instr) (a b c d : Int) : State :=
  { State.reset with
    cmdOp := opcode i
    latched := ⟨opcode i, BitVec.ofInt 64 a, BitVec.ofInt 64 b, BitVec.ofInt 64 c, BitVec.ofInt 64 d⟩
    status := statusAccepted Status.zero
    schedule := [.core] }

/-- RESULT and the STATUS word of a next state. -/
def ended : Host.Outcome State Fault Refusal → Option (Word × Word)
  | .next t => some (t.result, statusWord t.status)
  | .fault _ => none
  | .refused _ => none

/-- The state after reset with a schedule. -/
def scheduled (l : List Event) : State := { State.reset with schedule := l }

/-- The next state, or the state itself where there is none. -/
def nextOf (s : State) : State :=
  match step s with
  | .next t => t
  | .fault _ => s
  | .refused _ => s

/-- The register window after a write. -/
def afterWrite (off : Offset) (v : Word) (s : State) : State := (transact (writeAccess off v) s).2

/-! ## Decoding: words written out from R52 and R53 -/

theorem test_decode_modexp : decode 0x0000000000000001#64 = .command .modexp := by decide
theorem test_decode_modmul : decode 0x0000000000000002#64 = .command .modmul := by decide
theorem test_decode_modinv : decode 0x0000000000000003#64 = .command .modinv := by decide
theorem test_decode_modred : decode 0x0000000000000004#64 = .command .modred := by decide
theorem test_decode_crt_decrypt : decode 0x0000000000000005#64 = .command .crtDecrypt := by decide
theorem test_decode_zero_is_illegal : decode 0x0000000000000000#64 = .illegalOpcode 0x00#8 := by decide
theorem test_decode_06_is_illegal : decode 0x0000000000000006#64 = .illegalOpcode 0x06#8 := by decide
theorem test_decode_ff_is_illegal : decode 0x00000000000001FF#64 = .illegalOpcode 0xFF#8 := by decide
theorem test_decode_ignores_high_bits : decode 0xFFFFFFFFFFFFFF04#64 = .command .modred := by decide

/-- The words of the five rows as spec/opcode_table.json numbers them, with 64 bits and with the opcode byte alone. -/
theorem test_decodeTableWord :
    decodeTableWord 64 1 = some .modexp ∧ decodeTableWord 64 2 = some .modmul ∧ decodeTableWord 64 3 = some .modinv
      ∧ decodeTableWord 64 4 = some .modred ∧ decodeTableWord 8 5 = some .crtDecrypt ∧ decodeTableWord 64 6 = none := by
  decide

/-! ## WellFormed: each check refuses an ill-formed term -/

theorem test_wf_instr : ∀ i : Instr, i.wellFormed = true := by intro i; cases i <;> decide
theorem test_wf_word : wordWellFormed 0x5#64 = true := by decide
theorem test_wf_word_reserved_bits : wordWellFormed 0x105#64 = false := by decide
theorem test_wf_word_illegal_opcode : wordWellFormed 0x6#64 = false := by decide
theorem test_wf_word_opcode_zero : wordWellFormed 0x0#64 = false := by decide
theorem test_wf_access : (readAccess 0x40#7).wellFormed = true := by decide
theorem test_wf_access_narrow : (⟨false, 0x40#7, 0#64, .word⟩ : Access).wellFormed = false := by decide
theorem test_wf_access_misaligned : (readAccess 0x44#7).wellFormed = false := by decide
theorem test_wf_access_reserved : (readAccess 0x48#7).wellFormed = false := by decide

/-! ## Reset -/

theorem test_reset_meets_invariant : Inv State.reset := by decide

/-- Vectors B1 and B2. -/
theorem test_reset_id_and_status :
    windowRead 0x00#7 State.reset = ⟨0x434F524500000001#64, false⟩
      ∧ windowRead 0x10#7 State.reset = ⟨0#64, false⟩ := by decide

/-- Vector B18: a reset while a command is in flight. -/
theorem test_reset_abandons :
    let t := nextOf { loaded .modred 10 0 3 0 with schedule := [.reset] }
    t.status = Status.zero ∧ t.result = 0#64 ∧ t.cmdOp = 0#8 ∧ ended (step t) = some (0#64, 0#64) := by decide

/-! ## The five commands (vectors of sections 2 to 4) -/

theorem test_modexp_E10 :
    ended (exec .modexp (loaded .modexp 3 9223372036854775807 3037000500 0)) = some (2360423187#64, 0x002#64) := by
  decide +kernel
theorem test_modexp_E21 :
    ended (exec .modexp (loaded .modexp 2 (-1) 3037000501 0)) = some (0#64, 0x322#64) := by decide
theorem test_modmul_M5 :
    ended (exec .modmul (loaded .modmul (-9223372036854775808) 9223372036854775807 97 0)) = some (46#64, 0x002#64) := by
  decide
theorem test_modmul_M9 : ended (exec .modmul (loaded .modmul 5 6 3037000501 0)) = some (0#64, 0x422#64) := by decide
theorem test_modinv_I12 :
    ended (exec .modinv (loaded .modinv (-9223372036854775808) 0 9223372036854775807 0))
      = some (9223372036854775806#64, 0x002#64) := by decide +kernel
theorem test_modinv_I14 : ended (exec .modinv (loaded .modinv 6 0 9 0)) = some (0#64, 0x212#64) := by decide +kernel
theorem test_modred_D8 :
    ended (exec .modred (loaded .modred (-9223372036854775808) 0 9223372036854775807 0))
      = some (9223372036854775806#64, 0x002#64) := by decide
theorem test_modred_D12 :
    ended (exec .modred (loaded .modred (-9223372036854775808) 0 (-9223372036854775808) 0)) = some (0#64, 0x112#64) := by
  decide
theorem test_crt_C9 :
    ended (exec .crtDecrypt (loaded .crtDecrypt 1085805825050812347 204963820941455453 2147483647 2147483629))
      = some (1234567890123456789#64, 0x002#64) := by decide +kernel
theorem test_crt_C22 :
    ended (exec .crtDecrypt (loaded .crtDecrypt 0 1 3037000500 3037000500)) = some (0#64, 0x522#64) := by decide

/-- The trace of W1: the working values of MODEXP 4, 13, 497 at the seed and after each turn. -/
theorem test_modexp_trace_W1 :
    expSeed 4 13 497 = ⟨4, 6, 4⟩ ∧ expIter 497 ⟨4, 6, 4⟩ = ⟨16, 3, 4⟩ ∧ expIter 497 ⟨16, 3, 4⟩ = ⟨256, 1, 30⟩
      ∧ expIter 497 ⟨256, 1, 30⟩ = ⟨429, 0, 445⟩ := by decide

/-- The trace of I1: the working values of MODINV 7, 780 at the start, after one turn and at the end. -/
theorem test_modinv_trace_I1 :
    invSeed 7 780 = ⟨7, 780, 1, 0⟩ ∧ invLoop 1 (invSeed 7 780) = ⟨780, 7, 0, 1⟩
      ∧ invRun 7 780 = ⟨1, 0, 223, -780⟩ := by decide +kernel

/-! ## The bus, issue and the interrupt (vectors of section 5) -/

/-- B5 and B6: bus errors, and a misaligned write near CMD issues nothing. -/
theorem test_bus_errors :
    windowRead 0x48#7 State.reset = busError
      ∧ transact (writeAccess 0x78#7 1#64) State.reset = (busError, State.reset)
      ∧ windowRead 0x04#7 State.reset = busError
      ∧ transact (writeAccess 0x0C#7 1#64) State.reset = (busError, State.reset) := by decide

/-- B8, B11 and B12: an illegal opcode, and what STATUS writes clear. -/
theorem test_illegal_opcode :
    let t := afterWrite 0x08#7 0x06#64 State.reset
    (windowRead 0x10#7 t).rdata = 0x732#64 ∧ (windowRead 0x08#7 t).rdata = 0x06#64 ∧ t.result = 0#64
      ∧ (windowRead 0x10#7 (afterWrite 0x10#7 0x2#64 t)).rdata = 0x730#64
      ∧ (windowRead 0x10#7 (afterWrite 0x10#7 0xFFFFFFFFFFFFFFF9#64 t)).rdata = 0x732#64 := by decide

/-- B10: the reserved bits of the command word are ignored. -/
theorem test_reserved_command_bits :
    let t := afterWrite 0x08#7 0xFFFFFFFFFFFFFF04#64 (afterWrite 0x30#7 3#64 (afterWrite 0x20#7 10#64 State.reset))
    (windowRead 0x08#7 t).rdata = 0x04#64 ∧ ended (step t) = some (1#64, 0x002#64) := by decide

/-- B15: a CMD write while BUSY = 1. -/
theorem test_overrun :
    let t := afterWrite 0x08#7 0x03#64 { loaded .modred 10 0 3 0 with irqEn := ⟨false, true⟩ }
    irq t = true ∧ (windowRead 0x08#7 t).rdata = 0x04#64 ∧ ended (step t) = some (1#64, 0x006#64) := by decide

/-- B16. -/
theorem test_irq_en_bits :
    (windowRead 0x18#7 (afterWrite 0x18#7 0xFFFFFFFFFFFFFFFF#64 State.reset)).rdata = 0x3#64 := by decide

/-- B13 and B14: irq from a completion until DONE is cleared. -/
theorem test_irq_done :
    let t := nextOf { loaded .modred 10 0 3 0 with irqEn := ⟨true, false⟩ }
    irq t = true ∧ irq (afterWrite 0x10#7 0x2#64 t) = false := by decide

/-- B17: an operand written while BUSY = 1 does not change the command in flight. -/
theorem test_latched_operands :
    let t := nextOf (afterWrite 0x20#7 5#64 (loaded .modexp 4 13 497 0))
    t.result = 445#64 ∧ t.opa = 5#64 := by decide +kernel

/-- R38: a narrow access is refused by name. -/
theorem test_narrow_access :
    step (scheduled [.request ⟨true, 0x20#7, 1#64, .half⟩]) = .refused (.narrowAccess .half) := rfl

/-- R34: while a response is pending the next request waits. -/
theorem test_request_waits :
    let t := nextOf (scheduled [.request (writeAccess 0x20#7 7#64), .request (readAccess 0x20#7)])
    t.rspPending = some ⟨0#64, false⟩ ∧ t.opa = 7#64
      ∧ (nextOf t).rspOut = some ⟨0#64, false⟩ ∧ (nextOf t).schedule = [.request (readAccess 0x20#7)]
      ∧ (nextOf (nextOf t)).rspPending = some ⟨7#64, false⟩ := by decide

/-! ## The command word placed for the next step -/

theorem test_withFetchWord : ended (step (State.reset.withFetchWord 64 5)) = some (0#64, 0x112#64) := by decide

/-! ## The host's notation (R60, R61) -/

/-- Lines 1 to 7 of program P1 are the expansion of `MODEXP 4, 13, 497`. -/
theorem test_pseudo_P1 : pseudoExpand (.modexp (.lit 4) (.lit 13) (.lit 497)) =
    [.wr .opa (.lit 4), .wr .opb (.lit 13), .wr .opc (.lit 497), .wr .cmd (.lit 1), .poll, .rd .status 0,
      .rd .result 1] := by decide

/-- Lines 10 to 14 of program P2 are the writes of `CRT_DECRYPT 1317, d, 61, 53`, with d a name read earlier. -/
theorem test_pseudo_P2 : (pseudoExpand (.crtDecrypt (.lit 1317) (.bound 7) (.lit 61) (.lit 53))).take 5 =
    [.wr .opa (.lit 1317), .wr .opb (.bound 7), .wr .opc (.lit 61), .wr .opd (.lit 53), .wr .cmd (.lit 5)] := by decide

/-- K5: verify(65, 2093) is true and verify(65, 2094) is false. -/
theorem test_verify_K5 : verifyAccepts 65 0x002#64 65#64 = true ∧ verifyAccepts 65 0x002#64 2108#64 = false := by decide

/-- The host's range check of encrypt: message = n is signalled by the host (R61). -/
theorem test_encrypt_range :
    hostOperationExpand [] (.encrypt (.lit 3233) (.lit 7) (.lit 3233)) = .rangeError
      ∧ hostOperationExpand [] (.encrypt (.lit 65) (.lit 7) (.lit 3233)) =
        .run (.modexp (.lit 65) (.lit 7) (.lit 3233)) := by decide

/-- A branch on a bit of a value read (R60): `BNZ` jumps when the bit is 1, `BZ` goes on. -/
theorem test_host_branches :
    (hostLineStep ⟨[.label 3, .bnz 0 4 3], 1, [(0, 0x10#64)]⟩ State.reset).map (fun x => x.1.line) = some 0
      ∧ (hostLineStep ⟨[.label 3, .bz 0 4 3], 1, [(0, 0x10#64)]⟩ State.reset).map (fun x => x.1.line) = some 2 := by
  decide

/-- `POLL` stays at its line while BUSY = 1 and reads STATUS into `s` (R60). -/
theorem test_host_poll :
    (hostLineStep ⟨[.poll], 0, []⟩ (loaded .modred 10 0 3 0)).map (fun x => (x.1.line, x.1.names))
      = some (0, [(0, 1#64)])
      ∧ (hostLineStep ⟨[.poll], 0, []⟩ State.reset).map (fun x => x.1.line) = some 1 := by decide

/-! ## Witnesses: the hypotheses of the statements can be met -/

theorem witness_ResetStepClearsTheBlock :
    ({ loaded .modred 10 0 3 0 with schedule := [.reset, .core] } : State).schedule = .reset :: [.core] := rfl

theorem witness_StepKeepsTheInvariant : ∃ t, Inv (loaded .modred 10 0 3 0) ∧ step (loaded .modred 10 0 3 0) = .next t
    ∧ t.result = 1#64 := ⟨_, by decide, rfl, by decide⟩

/-- A run from reset that issues a command: BUSY = 1 in the state it reaches. -/
theorem witness_ReachableStatesMeetR32 : ∃ t,
    Host.Core.run Sys2Proof.core 1 (scheduled [.request (writeAccess 0x08#7 1#64), .core]) = .next t
      ∧ t.status.busy = true := ⟨_, rfl, rfl⟩

/-- As above, one step later: the command has failed with cause 1. -/
theorem witness_ReachableStatesMeetR32_after_completion : ∃ t,
    Host.Core.run Sys2Proof.core 2 (scheduled [.request (writeAccess 0x08#7 1#64), .core]) = .next t
      ∧ t.status.cause = .badModulus := ⟨_, rfl, rfl⟩

theorem witness_RequestIsOneAtomicStep :
    (scheduled [.request (writeAccess 0x20#7 7#64)]).schedule = .request (writeAccess 0x20#7 7#64) :: []
      ∧ (scheduled [.request (writeAccess 0x20#7 7#64)]).rspPending = none
      ∧ (writeAccess 0x20#7 7#64).width = .dword := ⟨rfl, rfl, rfl⟩

theorem witness_ReadOnlyWritesAreIgnored_id :
    (writeAccess 0x00#7 5#64).write = true ∧ (writeAccess 0x00#7 5#64).addr = 0x00#7 := ⟨rfl, rfl⟩
theorem witness_ReadOnlyWritesAreIgnored_result :
    (writeAccess 0x40#7 5#64).write = true ∧ (writeAccess 0x40#7 5#64).addr = 0x40#7 := ⟨rfl, rfl⟩

theorem witness_MisalignedAccessIsBusError_first : (readAccess 0x01#7).addr.toNat % 8 ≠ 0 := by decide
theorem witness_MisalignedAccessIsBusError_last : (writeAccess 0x7F#7 1#64).addr.toNat % 8 ≠ 0 := by decide

theorem witness_ReservedOffsetIsBusError :
    (readAccess 0x48#7).addr ∈ [0x48#7, 0x50#7, 0x58#7, 0x60#7, 0x68#7, 0x70#7, 0x78#7]
      ∧ (writeAccess 0x78#7 1#64).addr ∈ [0x48#7, 0x50#7, 0x58#7, 0x60#7, 0x68#7, 0x70#7, 0x78#7] := by decide

theorem witness_NarrowAccessIsRefused_narrow :
    (scheduled [.request ⟨true, 0x20#7, 1#64, .word⟩]).schedule = .request ⟨true, 0x20#7, 1#64, .word⟩ :: []
      ∧ (scheduled [.request ⟨true, 0x20#7, 1#64, .word⟩]).rspPending = none
      ∧ (⟨true, 0x20#7, 1#64, .word⟩ : Access).width ≠ .dword := by decide
theorem witness_NarrowAccessIsRefused_full :
    (scheduled [.request (readAccess 0x00#7)]).rspPending = none ∧ (readAccess 0x00#7).width = .dword := by decide

theorem witness_AccessesButCmdWritesAreIdempotent :
    (readAccess 0x10#7).write = false ∧ (writeAccess 0x10#7 6#64).write = true
      ∧ (writeAccess 0x10#7 6#64).addr ≠ 0x08#7 := by decide

/-- The response is presented in the step after the take. -/
theorem witness_ResponseFollowsItsRequest_presented :
    let s := nextOf (scheduled [.request (readAccess 0x00#7), .response])
    ∃ t, step s = .next t ∧ t.rspOut ≠ none ∧ s.rspPending ≠ none := ⟨_, rfl, by decide, by decide⟩
/-- The response stays pending over a turn of the core. -/
theorem witness_ResponseFollowsItsRequest_waiting :
    let s := nextOf (scheduled [.request (readAccess 0x00#7), .core])
    ∃ t, step s = .next t ∧ s.rspPending ≠ none ∧ t.rspPending = s.rspPending := ⟨_, rfl, by decide, by decide⟩
/-- A reset loses the response. -/
theorem witness_ResponseFollowsItsRequest_reset :
    let s := nextOf (scheduled [.request (readAccess 0x00#7), .reset])
    ∃ t, step s = .next t ∧ s.rspPending ≠ none ∧ t.rspPending = none ∧ t.rspOut = none :=
  ⟨_, rfl, by decide, by decide, by decide⟩
/-- A second request while a response is pending. -/
theorem witness_ResponseFollowsItsRequest_held :
    let s := nextOf (scheduled [.request (readAccess 0x00#7), .request (readAccess 0x40#7)])
    s.schedule = .request (readAccess 0x40#7) :: [] ∧ s.rspPending = some ⟨0x434F524500000001#64, false⟩ := by decide

theorem witness_PlatformAddressesMapToOffsets : Config.base + 0x80 ≤ Config.base + 0x80 := le_refl _

theorem witness_PlatformBytesCoverTheRegister :
    Config.base + RegName.opa.off.toNat ≤ Config.base + 0x27 ∧ Config.base + 0x27 < Config.base + RegName.opa.off.toNat + 8 := by
  have : RegName.opa.off.toNat = 0x20 := by decide
  omega

theorem witness_DecodeAndEncodeAgree :
    Instr.crtDecrypt.wellFormed = true ∧ decode 0xFFFFFFFFFFFFFF05#64 = .command .crtDecrypt
      ∧ (0x100#64).toNat % 256 = 0 ∧ 5 < (0x06#64).toNat % 256 ∧ 5 < (0xFFFF#64).toNat % 256 := by decide

theorem witness_CmdWriteIssues_busy : (loaded .modred 10 0 3 0).status.busy = true := by decide
theorem witness_CmdWriteIssues_legal :
    State.reset.status.busy = false ∧ 1 ≤ (0x101#64).toNat % 256 ∧ (0x101#64).toNat % 256 ≤ 5
      ∧ 1 ≤ (0x05#64).toNat % 256 ∧ (0x05#64).toNat % 256 ≤ 5 := by decide
theorem witness_CmdWriteIssues_illegal :
    State.reset.status.busy = false ∧ (0x00#64).toNat % 256 = 0 ∧ 5 < (0x06#64).toNat % 256 := by decide

theorem witness_ReservedCommandBitsAreIgnored : (0xAB00#64).toNat % 256 = 0 ∧ 5 < (0xAB06#64).toNat % 256 := by decide

theorem witness_PseudoInstructionIssuesItsCommand :
    State.reset.status.busy = false
      ∧ ∀ x ∈ pseudoOperands (.crtDecrypt (.lit 1317) (.bound 7) (.lit 61) (.lit 53)),
        (hostValue [(7, 223#64)] x.2).isSome = true := by decide

theorem witness_CoreStepRunsTheLatchedCommand_busy :
    (loaded .modinv 7 0 780 0).schedule = .core :: [] ∧ (loaded .modinv 7 0 780 0).status.busy = true
      ∧ decode ((loaded .modinv 7 0 780 0).latched.op.setWidth 64) = .command .modinv := by decide
theorem witness_CoreStepRunsTheLatchedCommand_idle :
    (scheduled [.core]).schedule = .core :: [] ∧ (scheduled [.core]).status.busy = false := by decide

theorem witness_PlacedCommandWordRunsNext : decode 0x0000000000000003#64 = .command .modinv := by decide

theorem witness_ModexpComputesThePower_bad_modulus : (loaded .modexp 2 0 0 0).latched.c.toInt ≤ 0 := by decide
theorem witness_ModexpComputesThePower_neg_exponent :
    1 ≤ (loaded .modexp 2 (-1) 1 0).latched.c.toInt ∧ (loaded .modexp 2 (-1) 1 0).latched.b.toInt < 0 := by decide
theorem witness_ModexpComputesThePower_mod_too_large :
    1 ≤ (loaded .modexp 2 0 3037000501 0).latched.c.toInt ∧ 0 ≤ (loaded .modexp 2 0 3037000501 0).latched.b.toInt
      ∧ 3037000500 < (loaded .modexp 2 0 3037000501 0).latched.c.toInt := by decide
/-- The result clause at both ends of the modulus and of the exponent. -/
theorem witness_ModexpComputesThePower_result :
    (1 ≤ (loaded .modexp 5 0 1 0).latched.c.toInt ∧ 0 ≤ (loaded .modexp 5 0 1 0).latched.b.toInt
        ∧ (loaded .modexp 5 0 1 0).latched.c.toInt ≤ 3037000500)
      ∧ 0 ≤ (loaded .modexp 3 9223372036854775807 3037000500 0).latched.b.toInt
      ∧ (loaded .modexp 3 9223372036854775807 3037000500 0).latched.c.toInt ≤ 3037000500 := by decide

theorem witness_ModexpMatchesRepeatedMultiplication :
    let s := loaded .modexp 4 13 497 0
    1 ≤ s.latched.c.toInt ∧ s.latched.c.toInt ≤ 3037000500 ∧ 0 ≤ s.latched.b.toInt
      ∧ s.latched.a = 4#64 ∧ s.latched.b = 13#64 ∧ s.latched.c = 497#64 := by decide

theorem witness_ModmulMultipliesAndReduces_bad_modulus : (loaded .modmul 5 6 0 0).latched.c.toInt ≤ 0 := by decide
theorem witness_ModmulMultipliesAndReduces_mod_too_large :
    3037000500 < (loaded .modmul 5 6 3037000501 0).latched.c.toInt := by decide
theorem witness_ModmulMultipliesAndReduces_result :
    (1 ≤ (loaded .modmul 5 6 1 0).latched.c.toInt ∧ (loaded .modmul 5 6 1 0).latched.c.toInt ≤ 3037000500)
      ∧ 1 ≤ (loaded .modmul (-1) (-1) 3037000500 0).latched.c.toInt
      ∧ (loaded .modmul (-1) (-1) 3037000500 0).latched.c.toInt ≤ 3037000500 := by decide

theorem witness_ModinvFindsTheInverse_bad_modulus : (loaded .modinv 5 0 0 0).latched.c.toInt ≤ 0 := by decide
theorem witness_ModinvFindsTheInverse_not_invertible :
    let s := loaded .modinv 0 0 2 0
    1 ≤ s.latched.c.toInt ∧ Int.gcd (s.latched.a.toInt % s.latched.c.toInt) s.latched.c.toInt ≠ 1 := by decide +kernel
/-- The result clause at both ends of the modulus. -/
theorem witness_ModinvFindsTheInverse_result :
    let s := loaded .modinv 0 0 1 0
    let t := loaded .modinv 2 0 9223372036854775807 0
    (1 ≤ s.latched.c.toInt ∧ Int.gcd (s.latched.a.toInt % s.latched.c.toInt) s.latched.c.toInt = 1)
      ∧ 1 ≤ t.latched.c.toInt ∧ Int.gcd (t.latched.a.toInt % t.latched.c.toInt) t.latched.c.toInt = 1 := by
  decide +kernel

theorem witness_ModinvResultIsAnInverse : ∃ t,
    exec .modinv (loaded .modinv 3 0 11 0) = .next t ∧ t.status.err = .noError := by
  obtain ⟨t, ht, h⟩ := execModinv_ends (loaded .modinv 3 0 11 0)
  have hc : opC (loaded .modinv 3 0 11 0) = 11 := by decide
  have ha : opA (loaded .modinv 3 0 11 0) = 3 := by decide
  have hr : modinvRef 3 11 = some 4 := by decide +kernel
  rw [ha, hc, hr] at h
  rcases h with ⟨h, -⟩ | ⟨-, h, -⟩ | ⟨-, y, -, u, n, rfl⟩
  · omega
  · cases h
  · exact ⟨_, ht, rfl⟩

theorem witness_ModredTakesTheFlooredRemainder_bad_modulus : (loaded .modred 7 0 0 0).latched.c.toInt ≤ 0 := by decide
theorem witness_ModredTakesTheFlooredRemainder_result :
    1 ≤ (loaded .modred 5 0 1 0).latched.c.toInt ∧ 1 ≤ (loaded .modred (-1) 0 9223372036854775807 0).latched.c.toInt := by
  decide

/-- The clauses of CRT_DECRYPT, each at a boundary, on the numbers c, d, p, q that the operands stand for. -/
theorem witness_CrtDecryptRecombines_operands :
    let s := loaded .crtDecrypt 1317 223 61 53
    1317 = s.latched.a.toInt ∧ 223 = s.latched.b.toInt ∧ 61 = s.latched.c.toInt ∧ 53 = s.latched.d.toInt := by decide
theorem witness_CrtDecryptRecombines_bad_modulus :
    let s := loaded .crtDecrypt 5 3 2 1
    s.latched.c.toInt ≤ 1 ∨ s.latched.d.toInt ≤ 1 := by decide
theorem witness_CrtDecryptRecombines_neg_exponent :
    let s := loaded .crtDecrypt 5 (-1) 2 2
    2 ≤ s.latched.c.toInt ∧ 2 ≤ s.latched.d.toInt ∧ s.latched.b.toInt < 0 := by decide
theorem witness_CrtDecryptRecombines_mod_too_large :
    let s := loaded .crtDecrypt 5 0 2 3037000501
    2 ≤ s.latched.c.toInt ∧ 2 ≤ s.latched.d.toInt ∧ 0 ≤ s.latched.b.toInt
      ∧ (3037000500 < s.latched.c.toInt ∨ 3037000500 < s.latched.d.toInt) := by decide
theorem witness_CrtDecryptRecombines_n_overflow :
    let s := loaded .crtDecrypt 0 1 3037000500 3037000500
    2 ≤ s.latched.c.toInt ∧ 2 ≤ s.latched.d.toInt ∧ 0 ≤ s.latched.b.toInt ∧ s.latched.c.toInt ≤ 3037000500
      ∧ s.latched.d.toInt ≤ 3037000500 ∧ 9223372036854775807 < s.latched.c.toInt * s.latched.d.toInt := by decide
theorem witness_CrtDecryptRecombines_c_out_of_range :
    let s := loaded .crtDecrypt 3233 223 61 53
    2 ≤ s.latched.c.toInt ∧ 2 ≤ s.latched.d.toInt ∧ 0 ≤ s.latched.b.toInt ∧ s.latched.c.toInt ≤ 3037000500
      ∧ s.latched.d.toInt ≤ 3037000500 ∧ s.latched.c.toInt * s.latched.d.toInt ≤ 9223372036854775807
      ∧ (s.latched.a.toInt < 0 ∨ s.latched.c.toInt * s.latched.d.toInt ≤ s.latched.a.toInt) := by decide
theorem witness_CrtDecryptRecombines_not_invertible :
    let s := loaded .crtDecrypt 5 3 61 61
    2 ≤ s.latched.c.toInt ∧ 2 ≤ s.latched.d.toInt ∧ 0 ≤ s.latched.b.toInt ∧ s.latched.c.toInt ≤ 3037000500
      ∧ s.latched.d.toInt ≤ 3037000500 ∧ s.latched.c.toInt * s.latched.d.toInt ≤ 9223372036854775807
      ∧ 0 ≤ s.latched.a.toInt ∧ s.latched.a.toInt < s.latched.c.toInt * s.latched.d.toInt
      ∧ Int.gcd (s.latched.c.toInt % s.latched.d.toInt) s.latched.d.toInt ≠ 1 := by decide +kernel
/-- The result clause at the largest product that fits, with c = n - 1. -/
theorem witness_CrtDecryptRecombines_result :
    let s := loaded .crtDecrypt 9223372033963249499 0 3037000500 3037000499
    2 ≤ s.latched.c.toInt ∧ 2 ≤ s.latched.d.toInt ∧ 0 ≤ s.latched.b.toInt ∧ s.latched.c.toInt ≤ 3037000500
      ∧ s.latched.d.toInt ≤ 3037000500 ∧ s.latched.c.toInt * s.latched.d.toInt ≤ 9223372036854775807
      ∧ 0 ≤ s.latched.a.toInt ∧ s.latched.a.toInt < s.latched.c.toInt * s.latched.d.toInt
      ∧ Int.gcd (s.latched.c.toInt % s.latched.d.toInt) s.latched.d.toInt = 1 := by decide +kernel

theorem witness_CrtAgreesWithTheSourceFormula : (2 : Int) ≤ 2 ∧ (2 : Int) ≤ 3 ∧ (0 : Int) ≤ 1 ∧ (1 : Int) < 2 := by decide

theorem witness_CrtResultHasTheTwoHalves : ∃ t,
    exec .crtDecrypt (loaded .crtDecrypt 2 1 2 3) = .next t ∧ t.status.err = .noError := by
  refine ⟨_, rfl, ?_⟩
  have ha : opA (loaded .crtDecrypt 2 1 2 3) = 2 := by decide
  have hb : opB (loaded .crtDecrypt 2 1 2 3) = 1 := by decide
  have hc : opC (loaded .crtDecrypt 2 1 2 3) = 2 := by decide
  have hd : opD (loaded .crtDecrypt 2 1 2 3) = 3 := by decide
  have hr : modinvRef 2 3 = some 2 := by decide +kernel
  rw [ha, hb, hc, hd]
  simp [crtDecrypt, hr, Config.maxMod, Config.int64Max, completeWith, statusSucceeded]

theorem witness_CrtEqualsTheDirectPower :
    let s := loaded .crtDecrypt 1317 223 61 53
    Nat.Prime 61 ∧ Nat.Prime 53 ∧ (61 : Nat) ≠ 53 ∧ s.latched.c.toInt = (61 : Nat) ∧ s.latched.d.toInt = (53 : Nat)
      ∧ (61 : Nat) ≤ 3037000500 ∧ (53 : Nat) ≤ 3037000500 ∧ (61 : Nat) * 53 ≤ 9223372036854775807 ∧ 0 ≤ s.latched.b.toInt ∧ 0 ≤ s.latched.a.toInt ∧ s.latched.a.toInt < (61 : Nat) * (53 : Nat)
      ∧ ∀ r : Nat, r = 61 ∨ r = 53 →
        s.latched.a.toInt % r ≠ 0 ∨ s.latched.b.toInt = 0 ∨ s.latched.b.toInt % (r - 1) ≠ 0 := by
  refine ⟨by norm_num, by norm_num, by decide, by decide, by decide, by decide, by decide, by decide, by decide, by decide,
    by decide, ?_⟩
  rintro r (rfl | rfl) <;> left <;> decide

theorem witness_CommandsChangeOnlyStatusAndResult : ∃ t,
    exec .modmul (loaded .modmul 5 6 0 0) = .next t ∧ t.status.err ≠ .noError := ⟨_, rfl, by decide⟩

theorem witness_CausesFollowTheTable : ∃ t,
    exec .modred (loaded .modred 10 0 3 0) = .next t ∧ t.status.cause = .noCause := ⟨_, rfl, by decide⟩

theorem witness_StatusWriteClearsByOnes :
    let s := nextOf (loaded .modred 10 0 3 0)
    (windowRead 0x10#7 s).rdata.getLsbD 1 = true ∧ (0x2#64).getLsbD 1 = true := by decide

theorem witness_ResultChangesOnlyAtSuccess_success : ∃ t, step (loaded .modred 10 0 3 0) = .next t
    ∧ ((loaded .modred 10 0 3 0).status.busy && coreMoves (loaded .modred 10 0 3 0)) = true
    ∧ t.status.err = .noError := ⟨_, rfl, by decide, by decide⟩
theorem witness_ResultChangesOnlyAtSuccess_failure : ∃ t, step (loaded .modred 10 0 0 0) = .next t
    ∧ ((loaded .modred 10 0 0 0).status.busy && coreMoves (loaded .modred 10 0 0 0)) = true
    ∧ t.status.err ≠ .noError := ⟨_, rfl, by decide, by decide⟩
theorem witness_ResultChangesOnlyAtSuccess_other : ∃ t, step (scheduled [.request (writeAccess 0x40#7 5#64)]) = .next t
    ∧ resets (scheduled [.request (writeAccess 0x40#7 5#64)]) = false := ⟨_, rfl, by decide⟩
theorem witness_ResultChangesOnlyAtSuccess_reset : ∃ t, step (scheduled [.reset]) = .next t
    ∧ resets (scheduled [.reset]) = true := ⟨_, rfl, by decide⟩

theorem witness_BusyFollowsItsRule_set : ∃ t, step (scheduled [.request (writeAccess 0x08#7 5#64)]) = .next t
    ∧ takenWrite 0x08#7 (scheduled [.request (writeAccess 0x08#7 5#64)]) = some 5#64 ∧ t.status.busy = true :=
  ⟨_, rfl, by decide, by decide⟩
theorem witness_BusyFollowsItsRule_cleared : ∃ t, step (loaded .modred 10 0 3 0) = .next t
    ∧ coreMoves (loaded .modred 10 0 3 0) = true ∧ t.status.busy = false := ⟨_, rfl, by decide, by decide⟩

theorem witness_OverrunFollowsItsRule_set :
    let s := { loaded .modred 10 0 3 0 with schedule := [.request (writeAccess 0x08#7 1#64)] }
    ∃ t, step s = .next t ∧ (s.status.busy && (takenWrite 0x08#7 s).isSome) = true ∧ t.status.overrun = true :=
  ⟨_, rfl, by decide, by decide⟩
theorem witness_OverrunFollowsItsRule_cleared :
    let s := { State.reset with
      status := ⟨false, false, true, .noError, .noCause⟩, schedule := [.request (writeAccess 0x10#7 4#64)] }
    ∃ t, step s = .next t ∧ s.status.overrun = true ∧ t.status.overrun = false := ⟨_, rfl, by decide, by decide⟩

theorem witness_DoneFollowsItsRule_set :
    let s := scheduled [.request (writeAccess 0x08#7 6#64)]
    ∃ t, step s = .next t ∧ s.status.done = false ∧ t.status.done = true := ⟨_, rfl, by decide, by decide⟩
theorem witness_DoneFollowsItsRule_cleared :
    let s := { State.reset with
      status := ⟨false, true, false, .noError, .noCause⟩, schedule := [.request (writeAccess 0x08#7 1#64)] }
    ∃ t, step s = .next t ∧ s.status.done = true ∧ t.status.done = false := ⟨_, rfl, by decide, by decide⟩

theorem witness_ErrAndCauseFollowTheirRule_completion : ∃ t, step (loaded .modred 10 0 0 0) = .next t
    ∧ ((loaded .modred 10 0 0 0).status.busy && coreMoves (loaded .modred 10 0 0 0)) = true
    ∧ t.status.cause = .badModulus := ⟨_, rfl, by decide, by decide⟩
theorem witness_ErrAndCauseFollowTheirRule_illegal :
    let s := scheduled [.request (writeAccess 0x08#7 0x106#64)]
    ∃ t, step s = .next t ∧ takenWrite 0x08#7 s = some 0x106#64 ∧ s.status.busy = false ∧ 5 < (0x106#64).toNat % 256 :=
  ⟨_, rfl, by decide, by decide, by decide⟩
theorem witness_ErrAndCauseFollowTheirRule_legal :
    let s := { State.reset with
      status := ⟨false, true, false, .illegal, .illegalOp⟩, schedule := [.request (writeAccess 0x08#7 5#64)] }
    ∃ t, step s = .next t ∧ takenWrite 0x08#7 s = some 5#64 ∧ s.status.busy = false ∧ (5#64).toNat % 256 ≤ 5 :=
  ⟨_, rfl, by decide, by decide, by decide⟩
/-- A clear of DONE leaves ERR and CAUSE. -/
theorem witness_ErrAndCauseFollowTheirRule_kept :
    let s := { State.reset with
      status := ⟨false, true, false, .illegal, .illegalOp⟩, schedule := [.request (writeAccess 0x10#7 2#64)] }
    ∃ t, step s = .next t ∧ takenWrite 0x08#7 s = none ∧ (s.status.busy && coreMoves s) = false
      ∧ t.status.done = false := ⟨_, rfl, by decide, by decide, by decide⟩

theorem witness_IdleStepsChangeNoRegister :
    let s := scheduled [.request (readAccess 0x40#7)]
    ∃ t, s.status.busy = false ∧ step s = .next t
      ∧ (∀ (a : Access) (rest : List Event), s.schedule = .request a :: rest → a.write = false)
      ∧ (∀ rest, s.schedule ≠ .reset :: rest) := by
  refine ⟨_, rfl, rfl, ?_, ?_⟩
  · intro a rest h
    cases h
    rfl
  · intro rest h
    cases h

theorem witness_OperandRegistersFollowTheirRule :
    let s := { loaded .modred 10 0 3 0 with schedule := [.request (writeAccess 0x38#7 9#64)] }
    ∃ t, step s = .next t ∧ resets s = false ∧ (takenWrite 0x38#7 s).isSome = true ∧ t.opd = 9#64 :=
  ⟨_, rfl, by decide, by decide, by decide⟩

theorem witness_CmdHoldsTheLastAcceptedOpcode : ∃ t,
    step (scheduled [.request (writeAccess 0x08#7 0xFFFF#64)]) = .next t ∧ t.cmdOp = 0xFF#8 := ⟨_, rfl, by decide⟩

theorem witness_CommandInFlightCompletes :
    let s := { loaded .modred 10 0 3 0 with
      schedule := [.request (writeAccess 0x20#7 1#64), .request (readAccess 0x10#7), .response] }
    Inv s ∧ s.status.busy = true ∧ ∀ e ∈ s.schedule, harmless e = true := by decide

theorem witness_MaxModIsTheLargestSafeModulus :
    (1 : Int) ≤ 3037000500 ∧ (3037000500 : Int) ≤ Config.maxMod ∧ (0 : Int) ≤ 3037000499
      ∧ (3037000499 : Int) < 3037000500 := by decide

theorem witness_ExponentiationLoopInvariant : (1 : Int) ≤ 1 ∧ (0 : Int) ≤ 0 := by decide

theorem witness_ModexpRefIsThePower : (1 : Int) ≤ 1 ∧ (0 : Int) ≤ Config.int64Max ∧ Config.int64Max ≠ 0 := by decide

theorem witness_EuclidLoopEndsAtTheGcd :
    ((1 : Int) ≤ 1 ∧ (1 : Int) ≤ Config.int64Max) ∧ (1 : Int) ≤ Config.int64Max := by decide

theorem witness_EuclidRegistersAreExact :
    ∃ w, (1 : Int) ≤ 780 ∧ (780 : Int) ≤ Config.int64Max ∧ w = invLoop 2 (invSeed 7 780) ∧ w.is1 = -111 :=
  ⟨_, by decide, by decide, rfl, by decide⟩

theorem witness_ReductionFromAnyEstimate :
    (1 : Int) ≤ 3 ∧ (1 : Int) ≤ 10 / 3 ∧ (10 : Int) / 3 ≤ 1 + (2 : Nat) ∧ redFromEstimate 2 1 10 3 = 1 := by decide

theorem witness_HiddenUnitsAreNeverVisible_next : ∃ t, step (loaded .modred 10 0 3 0) = .next t := ⟨_, rfl⟩
/-- No run reaches this state: a command in flight with an illegal opcode. -/
theorem witness_HiddenUnitsAreNeverVisible_fault :
    step { scheduled [.core] with status := statusAccepted Status.zero } = .fault .latchedOpIllegal := rfl
theorem witness_HiddenUnitsAreNeverVisible_refused :
    step (scheduled [.request ⟨false, 0x40#7, 0#64, .byte⟩]) = .refused (.narrowAccess .byte) := rfl

theorem witness_LatchedCommandIsNotReadWhileIdle_next :
    let s := scheduled [.request (writeAccess 0x08#7 4#64)]
    ∃ t, cstate s = .idle ∧ step s = .next t ∧ t.status.busy = true := ⟨_, by decide, rfl, by decide⟩
theorem witness_LatchedCommandIsNotReadWhileIdle_refused :
    cstate (scheduled [.request ⟨true, 0x08#7, 4#64, .half⟩]) = .idle
      ∧ step (scheduled [.request ⟨true, 0x08#7, 4#64, .half⟩]) = .refused (.narrowAccess .half) := ⟨rfl, rfl⟩

end Sys2Proof.Machine
end

section
/-! PROOFS. The bound on the modulus of the multiply-based commands (spec/00_scope.md R7, R9). -/

namespace Sys2Proof.Machine

/-- R7, its check at the boundary: `MAX_MOD - 1` squares to at most INT64_MAX, and `MAX_MOD` does not. -/
theorem int64Max_between_squares :
    (Config.maxMod - 1) ^ 2 ≤ Config.int64Max ∧ Config.int64Max < Config.maxMod ^ 2 := by decide

/-- R7: the square grows with the modulus, so the check at the boundary decides it on both sides. -/
theorem sq_pred_le_int64Max_iff {m : Int} (hm : 1 ≤ m) :
    (m - 1) ^ 2 ≤ Config.int64Max ↔ m ≤ Config.maxMod := by
  obtain ⟨hlow, hhigh⟩ := int64Max_between_squares
  constructor
  · intro hsq
    have hlt : m - 1 < Config.maxMod := lt_of_pow_lt_pow_left₀ 2 (by decide) (hsq.trans_lt hhigh)
    omega
  · intro hle
    exact (pow_le_pow_left₀ (by omega) (by omega) 2).trans hlow

/-- R9: reduced operands multiply to at most the square of the largest of them. -/
theorem mul_le_sq_pred {a b m : Int} (ham : a < m) (hb : 0 ≤ b) (hbm : b < m) : a * b ≤ (m - 1) ^ 2 :=
  calc a * b ≤ (m - 1) * (m - 1) := mul_le_mul (by omega) (by omega) hb (by omega)
    _ = (m - 1) ^ 2 := (sq (m - 1)).symm

/-- R9: the product inside `mulmod` is representable under the rule's preconditions. -/
theorem mul_le_int64Max {a b m : Int} (hm : m ≤ Config.maxMod) (ham : a < m) (hb : 0 ≤ b) (hbm : b < m) :
    a * b ≤ Config.int64Max :=
  (mul_le_sq_pred ham hb hbm).trans ((sq_pred_le_int64Max_iff (by omega)).mpr hm)

theorem mulmod_range (a b : Int) {m : Int} (hm : 1 ≤ m) : 0 ≤ mulmod a b m ∧ mulmod a b m < m :=
  modFloor_range (a * b) hm

/-- Settles O51: the boundary of R7 by monotonicity of the square, the product by R9's bound `(m - 1)^2`. -/
theorem maxModIsTheLargestSafeModulus : Obligations.MaxModIsTheLargestSafeModulus := by
  unfold Obligations.MaxModIsTheLargestSafeModulus
  constructor
  · intro m hm
    exact sq_pred_le_int64Max_iff hm
  · intro m a b hm ha ham hb hbm
    exact ⟨mul_nonneg ha hb, mul_le_int64Max hm ham hb hbm, mulmod_range a b (by omega)⟩

end Sys2Proof.Machine
end

section
/-! PROOFS. How a command ends, for whatever command it is: the causes it can fail with, the range of its result, and
what it leaves alone (spec/60_exceptions.md R76, R78 to R80). -/

namespace Sys2Proof.Machine

/-! ## The range of each command's result (R26, R62, R66, R71) -/

/-- R63: the accumulator stays reduced through the loop. -/
theorem expLoop_eacc_range {m : Int} (hm : 1 ≤ m) :
    ∀ (n : Nat) (w : ExpWork), 0 ≤ w.eacc ∧ w.eacc < m → 0 ≤ (expLoop m n w).eacc ∧ (expLoop m n w).eacc < m
  | 0, _, h => h
  | n + 1, w, h => by
    unfold expLoop
    split
    · exact h
    · refine expLoop_eacc_range hm n _ ?_
      unfold expIter
      split
      · exact mulmod_range _ _ hm
      · exact h

theorem expSeed_eacc_range (b e : Int) {m : Int} (hm : 1 ≤ m) :
    0 ≤ (expSeed b e m).eacc ∧ (expSeed b e m).eacc < m := by
  unfold expSeed
  split
  · exact modFloor_range b hm
  · exact modFloor_range 1 hm

theorem modexpRef_range (b e : Int) {m : Int} (hm : 1 ≤ m) : 0 ≤ modexpRef b e m ∧ modexpRef b e m < m := by
  unfold modexpRef
  split
  · exact modFloor_range 1 hm
  · exact expLoop_eacc_range hm _ _ (expSeed_eacc_range b e hm)

theorem modinvRef_range {a m y : Int} (hm : 1 ≤ m) (h : modinvRef a m = some y) : 0 ≤ y ∧ y < m := by
  unfold modinvRef at h
  split at h
  · cases h
    exact modFloor_range _ hm
  · cases h

/-- R71: the recombined value lies in [0, n), since `a1 < p` and `h < q`. -/
theorem crtResult_range (c d invp : Int) {p q : Int} (hp : 1 ≤ p) (hq : 1 ≤ q) :
    0 ≤ crtResult c d p q invp ∧ crtResult c d p q invp < p * q := by
  obtain ⟨ha, hap⟩ : 0 ≤ crtHalf c d p ∧ crtHalf c d p < p := modexpRef_range _ _ hp
  obtain ⟨hh, hhq⟩ := mulmod_range (modFloor (crtHalf c d q - crtHalf c d p) q) invp hq
  unfold crtResult crtRecombine crtH
  constructor
  · exact add_nonneg ha (mul_nonneg (by omega) hh)
  · calc _ < p + p * (q - 1) := add_lt_add_of_lt_of_le hap (mul_le_mul_of_nonneg_left (by omega) (by omega))
      _ = p * q := by ring

/-- R26: a result in the signed range that is not negative has bit 63 = 0. -/
theorem msb_pattern64 {r : Int} (h0 : 0 ≤ r) (h1 : r ≤ Config.int64Max) : (pattern64 r).msb = false := by
  have hr : (pattern64 r).toInt = r := sval_pattern64 ((by decide : Config.int64Min ≤ 0).trans h0) h1
  rw [BitVec.msb_eq_toInt, hr]
  simpa using h0

/-! ## The end of a command -/

/-- The causes a command can fail with (R76). -/
def failureCauses : Instr → List Cause
  | .modexp => [.badModulus, .negExponent, .modTooLarge]
  | .modmul => [.badModulus, .modTooLarge]
  | .modinv => [.badModulus, .notInvertible]
  | .modred => [.badModulus]
  | .crtDecrypt => [.badModulus, .notInvertible, .negExponent, .modTooLarge, .nOverflow, .cOutOfRange]

theorem noCause_notMem_failureCauses (i : Instr) : Cause.noCause ∉ failureCauses i := by cases i <;> decide

theorem illegalOp_notMem_failureCauses (i : Instr) : Cause.illegalOp ∉ failureCauses i := by cases i <;> decide

/-- A failure class is never that of a success (R21). -/
theorem causeClass_eq_noError_iff (c : Cause) : causeClass c = .noError ↔ c = .noCause := by cases c <;> decide

/-- A command that ends has failed with one of its causes, or succeeded with a result in [0, INT64_MAX]. -/
theorem exec_next {i : Instr} {s t : State} (h : exec i s = .next t) :
    (∃ c ∈ failureCauses i, FailsWith c s t) ∨ ∃ r, 0 ≤ r ∧ r ≤ Config.int64Max ∧ SucceedsWith r s t := by
  have hmax : Config.maxMod ≤ Config.int64Max := by decide
  have hcmax : opC s ≤ Config.int64Max := sval_le_int64Max _
  cases i with
  | modexp =>
    obtain ⟨u, hu, hend⟩ := execModexp_ends s
    cases hu.symm.trans h
    rcases hend with ⟨-, hf⟩ | ⟨-, -, hf⟩ | ⟨-, -, -, hf⟩ | ⟨hm, -, -, hs⟩
    · exact .inl ⟨_, by decide, hf⟩
    · exact .inl ⟨_, by decide, hf⟩
    · exact .inl ⟨_, by decide, hf⟩
    · obtain ⟨h0, h1⟩ := modexpRef_range (opA s) (opB s) (m := opC s) hm
      exact .inr ⟨_, h0, by omega, hs⟩
  | modmul =>
    obtain ⟨u, hu, hend⟩ := execModmul_ends s
    cases hu.symm.trans h
    rcases hend with ⟨-, hf⟩ | ⟨-, -, hf⟩ | ⟨hm, -, hs⟩
    · exact .inl ⟨_, by decide, hf⟩
    · exact .inl ⟨_, by decide, hf⟩
    · obtain ⟨h0, h1⟩ := mulmod_range (modFloor (opA s) (opC s)) (modFloor (opB s) (opC s)) (m := opC s) hm
      exact .inr ⟨_, h0, by omega, hs⟩
  | modinv =>
    obtain ⟨u, hu, hend⟩ := execModinv_ends s
    cases hu.symm.trans h
    rcases hend with ⟨-, hf⟩ | ⟨-, -, hf⟩ | ⟨hm, y, hy, hs⟩
    · exact .inl ⟨_, by decide, hf⟩
    · exact .inl ⟨_, by decide, hf⟩
    · obtain ⟨h0, h1⟩ := modinvRef_range hm hy
      exact .inr ⟨_, h0, by omega, hs⟩
  | modred =>
    obtain ⟨u, hu, hend⟩ := execModred_ends s
    cases hu.symm.trans h
    rcases hend with ⟨-, hf⟩ | ⟨hm, hs⟩
    · exact .inl ⟨_, by decide, hf⟩
    · obtain ⟨h0, h1⟩ := modFloor_range (opA s) (m := opC s) hm
      exact .inr ⟨_, h0, by omega, hs⟩
  | crtDecrypt =>
    cases h
    rcases crtDecrypt_ends (opA s) (opB s) (opC s) (opD s) s with
      ⟨-, hf⟩ | ⟨-, -, -, hf⟩ | ⟨-, -, -, -, hf⟩ | ⟨-, -, -, -, -, -, hf⟩ | ⟨-, -, -, -, -, -, -, hf⟩ | ⟨-, -, hf⟩ |
      ⟨⟨hp, hq, -, -, -, hpq, -⟩, y, -, hs, -⟩
    · exact .inl ⟨_, by decide, hf⟩
    · exact .inl ⟨_, by decide, hf⟩
    · exact .inl ⟨_, by decide, hf⟩
    · exact .inl ⟨_, by decide, hf⟩
    · exact .inl ⟨_, by decide, hf⟩
    · exact .inl ⟨_, by decide, hf⟩
    · obtain ⟨h0, h1⟩ := crtResult_range (opA s) (opB s) y hp.le hq.le
      exact .inr ⟨_, h0, by omega, hs⟩

/-- R78: `t` is `s` after some end of a command: RESULT as it is in `t`, DONE = 1, BUSY = 0 and ERR the class of CAUSE;
only the hidden units and their counter may differ beside these. -/
theorem exec_eq {i : Instr} {s t : State} (h : exec i s = .next t) :
    t = { s with
      result := t.result
      status := ⟨false, true, s.status.overrun, causeClass t.status.cause, t.status.cause⟩
      units := t.units
      freeCount := t.freeCount } := by
  rcases exec_next h with ⟨c, -, u, n, rfl⟩ | ⟨r, -, -, u, n, rfl⟩ <;> rfl

/-- A failed command leaves RESULT as it was (R80). -/
theorem exec_result_of_err {i : Instr} {s t : State} (h : exec i s = .next t) (he : t.status.err ≠ .noError) :
    t.result = s.result := by
  rcases exec_next h with ⟨c, -, u, n, rfl⟩ | ⟨r, -, -, u, n, rfl⟩
  · rfl
  · exact absurd rfl he

/-- A command that ends with ERR = 0 has stored the pattern of its result, with bit 63 = 0 (R26, R79). -/
theorem exec_result_of_noError {i : Instr} {s t : State} (h : exec i s = .next t) (he : t.status.err = .noError) :
    t.result.msb = false ∧ ∃ r, SucceedsWith r s t := by
  rcases exec_next h with ⟨c, hc, u, n, rfl⟩ | ⟨r, h0, h1, hs⟩
  · exact absurd ((causeClass_eq_noError_iff c).mp he ▸ hc) (noCause_notMem_failureCauses i)
  · obtain ⟨u, n, rfl⟩ := hs
    exact ⟨msb_pattern64 h0 h1, r, u, n, rfl⟩

/-- CAUSE after a command is NONE or one of the command's own causes (R76). -/
theorem exec_cause_mem {i : Instr} {s t : State} (h : exec i s = .next t) :
    t.status.cause ∈ Cause.noCause :: failureCauses i := by
  rcases exec_next h with ⟨c, hc, u, n, rfl⟩ | ⟨r, -, -, u, n, rfl⟩
  · exact List.mem_cons_of_mem _ hc
  · exact List.mem_cons_self

/-- R57: only the issue of an illegal opcode gives cause 7, never a completion. -/
theorem exec_cause_ne_illegalOp {i : Instr} {s t : State} (h : exec i s = .next t) : t.status.cause ≠ .illegalOp := by
  intro hc
  have hmem := exec_cause_mem h
  rw [hc] at hmem
  exact illegalOp_notMem_failureCauses i ((List.mem_cons.mp hmem).resolve_left (by decide))

/-- Settles O38: the causes of each command by how it can end. -/
theorem causesFollowTheTable : Obligations.CausesFollowTheTable := by
  unfold Obligations.CausesFollowTheTable
  refine ⟨by decide, by intro c; cases c <;> decide, ?_⟩
  intro i s t h
  have hcodes := List.mem_map_of_mem (f := fun c => (causeCode c).toNat) (exec_cause_mem h)
  cases i <;> exact hcodes

end Sys2Proof.Machine
end

section
/-! PROOFS. What a register write and a step are, said once: the fields a write stores, and the four kinds of step
(reset, write, completion, and a step that touches no register). -/

namespace Sys2Proof.Machine

/-! ## Issue by the opcode byte (R52, R53, R56, R57) -/

@[simp] theorem opField_toNat (v : Word) : (opField v).toNat = v.toNat % 256 := by
  simp [opField]

theorem decode_command_iff (v : Word) :
    (∃ i, decode v = .command i) ↔ 1 ≤ v.toNat % 256 ∧ v.toNat % 256 ≤ 5 := by
  rw [← opField_toNat]
  constructor
  · rintro ⟨i, hi⟩
    rcases decodeOp_cases (opField v) with ⟨j, -, ho⟩ | ho
    · rw [ho]
      cases j <;> decide
    · cases hi.symm.trans ho
  · intro ⟨h1, h5⟩
    have hof : opField v = BitVec.ofNat 8 (opField v).toNat := by rw [BitVec.ofNat_toNat, BitVec.setWidth_eq]
    unfold decode
    rw [hof]
    interval_cases (opField v).toNat
    · exact ⟨.modexp, rfl⟩
    · exact ⟨.modmul, rfl⟩
    · exact ⟨.modinv, rfl⟩
    · exact ⟨.modred, rfl⟩
    · exact ⟨.crtDecrypt, rfl⟩

theorem issue_of_busy (v : Word) {s : State} (hb : s.status.busy = true) : issue v s = dropCommand s := by
  simp [issue, hb]

/-- Issue while BUSY = 0: the opcode byte says which of the two it is. -/
theorem issue_of_idle (v : Word) {s : State} (hb : s.status.busy = false) :
    issue v s = if 1 ≤ v.toNat % 256 ∧ v.toNat % 256 ≤ 5 then acceptCommand (opField v) s
      else illegalCommand (opField v) s := by
  rcases issue_cases v s with ⟨hb', -⟩ | ⟨-, ⟨i, hi, -⟩, h⟩ | ⟨-, hi, h⟩
  · cases hb.symm.trans hb'
  · rw [h, if_pos ((decode_command_iff v).mp ⟨i, hi⟩)]
  · rw [h, if_neg]
    intro hv
    obtain ⟨i, hi'⟩ := (decode_command_iff v).mpr hv
    cases hi.symm.trans hi'

theorem issue_of_legal {v : Word} {s : State} (hb : s.status.busy = false) (h1 : 1 ≤ v.toNat % 256)
    (h5 : v.toNat % 256 ≤ 5) : issue v s = acceptCommand (opField v) s := by
  rw [issue_of_idle v hb, if_pos ⟨h1, h5⟩]

theorem issue_of_illegal {v : Word} {s : State} (hb : s.status.busy = false)
    (hv : v.toNat % 256 = 0 ∨ 5 < v.toNat % 256) : issue v s = illegalCommand (opField v) s := by
  rw [issue_of_idle v hb, if_neg (by omega)]

/-! ## The response port and the schedule stand apart from the registers -/

theorem writeReg_ports (r : RegName) (v : Word) (s : State) (pend out : Option Response) (sched : List Event) :
    writeReg r v { s with rspPending := pend, rspOut := out, schedule := sched }
      = { writeReg r v s with rspPending := pend, rspOut := out, schedule := sched } := by
  cases r with
  | cmd =>
    unfold writeReg issue
    cases s.status.busy with
    | true => rfl
    | false => cases decode v <;> rfl
  | _ => rfl

/-! ## One access, by the register at its offset (R14) -/

theorem off_inj {q r : RegName} : q.off = r.off ↔ q = r := by
  constructor
  · intro h
    simpa [regAt_off] using congrArg regAt h
  · exact congrArg _

/-- An access at a register's offset is that register's read or write (R41, R42). -/
theorem transact_of_off {a : Access} {r : RegName} (ha : a.addr = r.off) (s : State) :
    transact a s = if a.write then (⟨0#64, false⟩, writeReg r a.wdata s) else (⟨readReg r s, false⟩, s) := by
  simp [transact, ha, aligned_off, regAt_off]

/-- An access at any other offset is a bus error (R39, R40). -/
theorem transact_of_no_off {a : Access} (ha : ∀ r : RegName, a.addr ≠ r.off) (s : State) :
    transact a s = (busError, s) := by
  rcases transact_cases a s with h | ⟨r, hr, -⟩ | ⟨r, hr, -⟩
  · exact h
  · exact absurd hr (ha r)
  · exact absurd hr (ha r)

/-! ## The registers after a register write (R42) -/

/-- A CMD write while BUSY = 1 sets OVERRUN; otherwise it accepts the opcode or answers ERR = 3 (R19, R56, R57). -/
theorem issue_status (v : Word) (s : State) :
    (issue v s).status =
      if s.status.busy then statusOverrun s.status
      else if 1 ≤ v.toNat % 256 ∧ v.toNat % 256 ≤ 5 then statusAccepted s.status else statusIllegal s.status := by
  cases hb : s.status.busy with
  | true => rw [issue_of_busy v hb]; rfl
  | false => rw [issue_of_idle v hb, apply_ite State.status]; rfl

/-- CMD.OP is the opcode byte of every CMD write that is not dropped, legal or not (R16). -/
theorem issue_cmdOp (v : Word) (s : State) :
    (issue v s).cmdOp = if s.status.busy then s.cmdOp else opField v := by
  rcases issue_cases v s with ⟨hb, h⟩ | ⟨hb, -, h⟩ | ⟨hb, -, h⟩ <;> simp [h, hb]

theorem writeReg_status (r : RegName) (v : Word) (s : State) :
    (writeReg r v s).status =
      if r = .cmd then (issue v s).status else if r = .status then statusW1c v s.status else s.status := by
  cases r <;> rfl

theorem writeReg_cmdOp (r : RegName) (v : Word) (s : State) :
    (writeReg r v s).cmdOp = if r = .cmd then (issue v s).cmdOp else s.cmdOp := by
  cases r <;> rfl

theorem writeReg_latched (r : RegName) (v : Word) (s : State) :
    (writeReg r v s).latched = if r = .cmd then (issue v s).latched else s.latched := by
  cases r <;> rfl

/-- A CMD write leaves the operand registers alone (R56). -/
theorem issue_operands (v : Word) (s : State) :
    (issue v s).opa = s.opa ∧ (issue v s).opb = s.opb ∧ (issue v s).opc = s.opc ∧ (issue v s).opd = s.opd := by
  rcases issue_cases v s with ⟨-, h⟩ | ⟨-, -, h⟩ | ⟨-, -, h⟩ <;> simp [h]

/-- Each operand register takes a write to its own offset and no other (R25). -/
theorem writeReg_operands (r : RegName) (v : Word) (s : State) :
    (writeReg r v s).opa = (if r = .opa then v else s.opa) ∧ (writeReg r v s).opb = (if r = .opb then v else s.opb)
      ∧ (writeReg r v s).opc = (if r = .opc then v else s.opc)
      ∧ (writeReg r v s).opd = (if r = .opd then v else s.opd) := by
  cases r with
  | cmd => exact issue_operands v s
  | _ => exact ⟨rfl, rfl, rfl, rfl⟩

/-! ## The kinds of step -/

/-- What a step that answers `t` from `s` was: a reset, the take of a write, a step that touches no register, or the
completion of the command in flight. Beside what it did, each says what `resets`, `coreMoves` and `takenWrite`, the
terms of the statements, read in `s`. -/
inductive StepKind (s : State) : State → Prop
  | reset (rest : List Event) : resets s = true → coreMoves s = false →
      (∀ q : RegName, takenWrite q.off s = none) → StepKind s (resetCore (setSchedule rest s))
  | write (r : RegName) (v : Word) (rest : List Event) : resets s = false → coreMoves s = false →
      (∀ q : RegName, takenWrite q.off s = if r = q then some v else none) →
      StepKind s { writeReg r v s with rspPending := some ⟨0#64, false⟩, rspOut := none, schedule := rest }
  | quiet (pend out : Option Response) (rest : List Event) : resets s = false → (s.status.busy && coreMoves s) = false →
      (∀ q : RegName, takenWrite q.off s = none) →
      (responseOk s.rspPending = true → responseOk pend = true ∧ responseOk out = true) →
      StepKind s { s with rspPending := pend, rspOut := out, schedule := rest }
  | completes (i : Instr) (rest : List Event) (t : State) : resets s = false → (s.status.busy && coreMoves s) = true →
      (∀ q : RegName, takenWrite q.off s = none) → decodeOp s.latched.op = .command i →
      exec i { s with rspOut := none, schedule := rest } = .next t → StepKind s t

/-- A taken request is a write of one register, or it touches none (R35, R39 to R43). -/
theorem stepKind_of_takeRequest {a : Access} {rest : List Event} {s t : State} (hs : s.schedule = .request a :: rest)
    (hp : s.rspPending = none) (h : takeRequest a (setSchedule rest (beginCycle s)) = .next t) : StepKind s t := by
  obtain ⟨hw, rfl⟩ := takeRequest_next h
  have hr : resets s = false := by simp [resets, hs]
  have hc : coreMoves s = false := by simp [coreMoves, hs]
  have hbc : (s.status.busy && coreMoves s) = false := by simp [hc]
  have ht : ∀ q : RegName, takenWrite q.off s = if a.write && a.addr == q.off then some a.wdata else none := by
    simp [takenWrite, hs, hp, hw]
  by_cases ha : ∃ r : RegName, a.addr = r.off
  · obtain ⟨r, ha⟩ := ha
    rw [transact_of_off ha]
    cases hwr : a.write with
    | false => exact .quiet _ none rest hr hbc (by simp [ht, hwr]) fun _ => ⟨rfl, rfl⟩
    | true =>
      have hwrite : writeReg r a.wdata (setSchedule rest (beginCycle s)) = _ :=
        writeReg_ports r a.wdata s s.rspPending none rest
      rw [if_pos rfl, hwrite]
      exact .write r a.wdata rest hr hc (by simp [ht, hwr, ha, off_inj])
  · rw [not_exists] at ha
    rw [transact_of_no_off ha]
    exact .quiet _ none rest hr hbc (by simp [ht, ha]) fun _ => ⟨rfl, rfl⟩

/-- The core's turn is a completion, or it touches no register (R78, log 3). -/
theorem stepKind_of_coreTurn {rest : List Event} {s t : State} (hr : resets s = false) (hc : coreMoves s = true)
    (ht : ∀ q : RegName, takenWrite q.off s = none) (h : coreTurn (setSchedule rest (beginCycle s)) = .next t) :
    StepKind s t := by
  rcases coreTurn_next h with ⟨hb, i, hi, he⟩ | ⟨hb, rfl⟩
  · exact .completes i rest t hr (by simpa [hc] using hb) ht hi he
  · exact .quiet s.rspPending none rest hr (by simpa [hc] using hb) ht fun hok => ⟨hok, rfl⟩

/-- Every step is of one of the four kinds. -/
theorem stepKind_of_step {s t : State} (h : step s = .next t) : StepKind s t := by
  rcases step_cases h with ⟨a, rest, hs, hp, htake⟩ | ⟨hs, hp, rfl⟩ | ⟨rest, hs, rfl⟩ | ⟨rest, hs, hturn⟩ |
    ⟨hs, hp, hturn⟩ | ⟨rest, hs, rfl⟩
  · exact stepKind_of_takeRequest hs hp htake
  · obtain ⟨r, hp⟩ := Option.ne_none_iff_exists'.mp hp
    refine .quiet none s.rspPending s.schedule ?_ ?_ ?_ fun hok => ⟨rfl, hok⟩ <;>
      rcases hs with ⟨a, rest, hs⟩ | hs <;> simp [resets, coreMoves, takenWrite, hs, hp]
  · exact .quiet none s.rspPending rest (by simp [resets, hs]) (by simp [coreMoves, hs]) (by simp [takenWrite, hs])
      fun hok => ⟨rfl, hok⟩
  · exact stepKind_of_coreTurn (by simp [resets, hs]) (by simp [coreMoves, hs]) (by simp [takenWrite, hs]) hturn
  · exact stepKind_of_coreTurn (by simp [resets, hs]) (by simp [coreMoves, hs, hp]) (by simp [takenWrite, hs]) hturn
  · exact .reset rest (by simp [resets, hs]) (by simp [coreMoves, hs]) (by simp [takenWrite, hs])

end Sys2Proof.Machine
end

section
/-! PROOFS. The invariant of spec/10_state.md R32: every operation keeps it, so every step and every run does. -/

namespace Sys2Proof.Machine

/-! ## Each operation keeps the invariant -/

/-- The response port and the schedule enter the invariant only through R33's rule for an error response. -/
theorem Inv.ports {s : State} (h : Inv s) {pend out : Option Response} (sched : List Event)
    (hok : responseOk pend = true ∧ responseOk out = true) :
    Inv { s with rspPending := pend, rspOut := out, schedule := sched } := by
  obtain ⟨hbusy, hlegal, hclass, hmsb, -⟩ := h
  exact ⟨hbusy, hlegal, hclass, hmsb, hok⟩

/-- Settles O3. -/
theorem resetMeetsTheInvariant : Obligations.ResetMeetsTheInvariant := by
  unfold Obligations.ResetMeetsTheInvariant
  decide

theorem inv_resetCore (s : State) : Inv (resetCore s) := resetMeetsTheInvariant

/-- R30, R56: an accepted command is legal and is the one CMD.OP shows. -/
theorem issue_keeps_inv (v : Word) {s : State} (h : Inv s) : Inv (issue v s) := by
  obtain ⟨hbusy, hlegal, hclass, hmsb, hok⟩ := h
  rcases issue_cases v s with ⟨-, he⟩ | ⟨-, ⟨i, hi, ho⟩, he⟩ | ⟨hb, -, he⟩
  · rw [he]
    exact ⟨hbusy, hlegal, hclass, hmsb, hok⟩
  · rw [he]
    refine ⟨fun _ => ⟨rfl, rfl, rfl⟩, fun _ => ⟨?_, rfl⟩, rfl, hmsb, hok⟩
    simp [legalInFlight, inFlight, latchCommand, ho, decodeOp_opcode]
  · rw [he]
    have hidle : (illegalCommand (opField v) s).status.busy ≠ true := by simp [hb]
    exact ⟨fun hb' => absurd hb' hidle, fun hb' => absurd hb' hidle, rfl, hmsb, hok⟩

theorem writeReg_keeps_inv (r : RegName) (v : Word) {s : State} (h : Inv s) : Inv (writeReg r v s) := by
  cases r with
  | cmd => exact issue_keeps_inv v h
  | status =>
    obtain ⟨hbusy, hlegal, hclass, hmsb, hok⟩ := h
    refine ⟨fun hb => ?_, hlegal, hclass, hmsb, hok⟩
    obtain ⟨hdone, herr, hcause⟩ := hbusy hb
    exact ⟨by simp [writeReg, hdone], herr, hcause⟩
  | _ => exact h

/-- R78: a completion leaves BUSY = 0, ERR the class of CAUSE, and RESULT[63] = 0 whether it writes RESULT or not. -/
theorem exec_keeps_inv {i : Instr} {s t : State} (h : Inv s) (he : exec i s = .next t) : Inv t := by
  obtain ⟨-, -, -, hmsb, hok⟩ := h
  have hres : t.result.msb = false := by
    by_cases herr : t.status.err = .noError
    · exact (exec_result_of_noError he herr).1
    · rwa [exec_result_of_err he herr]
  rw [exec_eq he]
  exact ⟨fun hb => absurd hb (by simp), fun hb => absurd hb (by simp), rfl, hres, hok⟩

/-! ## Every step and every run keeps it -/

/-- Settles O4: each kind of step keeps the invariant, by the lemma about its operation. -/
theorem stepKeepsTheInvariant : Obligations.StepKeepsTheInvariant := by
  intro s t h hstep
  have ⟨_, _, _, _, hok, _⟩ := h
  cases stepKind_of_step hstep with
  | reset => exact inv_resetCore _
  | write r v rest => exact (writeReg_keeps_inv r v h).ports rest ⟨rfl, rfl⟩
  | quiet pend out rest _ _ _ hresp => exact h.ports rest (hresp hok)
  | completes i rest _ _ _ _ _ he => exact exec_keeps_inv (h.ports rest ⟨hok, rfl⟩) he

/-- What every step keeps holds in every state a run reaches. -/
theorem run_keeps {P : State → Prop} (hP : ∀ s t, P s → step s = .next t → P t) :
    ∀ (k : Nat) (s t : State), P s → Host.Core.run Sys2Proof.core k s = .next t → P t
  | 0, s, t, h, hrun => by
    cases hrun
    exact h
  | k + 1, s, t, h, hrun => by
    cases hs : step s with
    | next s' => exact run_keeps hP k s' t (hP s s' h hs) (run_succ_of_step hs k ▸ hrun)
    | fault f =>
      simp only [Host.Core.run, show Sys2Proof.core.step s = .fault f from hs] at hrun
      cases hrun
    | refused r =>
      simp only [Host.Core.run, show Sys2Proof.core.step s = .refused r from hs] at hrun
      cases hrun

end Sys2Proof.Machine
end

section
/-! PROOFS. The bits STATUS, IRQ_EN and CMD read as, and the interrupt (spec/10_state.md R16, R22 to R24). -/

namespace Sys2Proof.Machine

/-! ## The offsets of the statements, by name (R14) -/

theorem offset_cmd : 0x08#7 = RegName.cmd.off := rfl
theorem offset_status : 0x10#7 = RegName.status.off := rfl
theorem offset_irqEn : 0x18#7 = RegName.irqEn.off := rfl
theorem offset_opa : 0x20#7 = RegName.opa.off := rfl
theorem offset_opb : 0x28#7 = RegName.opb.off := rfl
theorem offset_opc : 0x30#7 = RegName.opc.off := rfl
theorem offset_opd : 0x38#7 = RegName.opd.off := rfl
theorem offset_result : 0x40#7 = RegName.result.off := rfl

theorem windowRead_off (r : RegName) (s : State) : windowRead r.off s = ⟨readReg r s, false⟩ := by
  rw [windowRead, transact_read]

/-! ## The bits (R22, R23) -/

theorem statusWord_getLsbD_of_ge (st : Status) {k : Nat} (hk : 12 ≤ k) : (statusWord st).getLsbD k = false := by
  have hcause : (causeCode st.cause).getLsbD (k - 8) = false := BitVec.getLsbD_of_ge _ _ (by omega)
  have herr : (errCode st.err).getLsbD (k - 4) = false := BitVec.getLsbD_of_ge _ _ (by omega)
  simp [statusWord, hcause, herr, show k - 2 ≠ 0 by omega, show k - 1 ≠ 0 by omega, show k ≠ 0 by omega]

/-- The field each bit of STATUS reads; every other bit is 0 (R22). -/
theorem statusWord_getLsbD (st : Status) (k : Nat) :
    (statusWord st).getLsbD k =
      if k = 0 then st.busy else if k = 1 then st.done else if k = 2 then st.overrun
      else if k = 4 ∨ k = 5 then (errCode st.err).getLsbD (k - 4)
      else if 8 ≤ k ∧ k < 12 then (causeCode st.cause).getLsbD (k - 8) else false := by
  by_cases hk : k < 12
  · interval_cases k <;> simp [statusWord]
  · rw [statusWord_getLsbD_of_ge st (by omega)]
    repeat rw [if_neg (by omega)]

theorem statusWord_reserved (st : Status) {k : Nat} (hk : k = 3 ∨ k = 6 ∨ k = 7 ∨ 12 ≤ k) :
    (statusWord st).getLsbD k = false := by
  rw [statusWord_getLsbD]
  repeat rw [if_neg (by omega)]

theorem irqEnWord_getLsbD (e : IrqEn) (k : Nat) :
    (irqEnWord e).getLsbD k = if k = 0 then e.doneIe else if k = 1 then e.overrunIe else false := by
  match k with
  | 0 => simp [irqEnWord]
  | 1 => simp [irqEnWord]
  | k + 2 => simp [irqEnWord]

/-- A STATUS write clears the bits 1 and 2 that are written 1, and no other (R22). -/
theorem statusWord_statusW1c_getLsbD (v : Word) (st : Status) (k : Nat) :
    (statusWord (statusW1c v st)).getLsbD k =
      ((statusWord st).getLsbD k && !((k = 1 ∨ k = 2) && v.getLsbD k)) := by
  simp only [statusWord_getLsbD, statusW1c_busy, statusW1c_done, statusW1c_overrun, statusW1c_err, statusW1c_cause]
  by_cases h1 : k = 1
  · subst h1
    rfl
  by_cases h2 : k = 2
  · subst h2
    rfl
  · simp [h1, h2]

theorem irqEnWord_irqEnOfWord (v : Word) : irqEnWord (irqEnOfWord v) = v &&& 0x3#64 := by
  refine BitVec.eq_of_getLsbD_eq fun k hk => ?_
  rw [irqEnWord_getLsbD]
  match k with
  | 0 => simp [irqEnOfWord]
  | 1 => simp [irqEnOfWord]
  | k + 2 => simp [BitVec.getLsbD_ofNat, Nat.testBit_add_one]

/-! ## The obligations about one register -/

/-- Settles O40: the bits of STATUS before and after `statusW1c`. -/
theorem statusWriteClearsByOnes : Obligations.StatusWriteClearsByOnes := by
  rw [Obligations.StatusWriteClearsByOnes, offset_status]
  intro s v k
  simp only [windowRead_off, transact_write, transact_read, and_true]
  exact ⟨statusWord_reserved s.status, statusWord_statusW1c_getLsbD v s.status k⟩

/-- Settles O41: IRQ_EN stores what `irqEnOfWord` takes from the value. -/
theorem irqEnKeepsTwoBits : Obligations.IrqEnKeepsTwoBits := by
  rw [Obligations.IrqEnKeepsTwoBits, offset_irqEn]
  intro s v
  simp only [windowRead_off, transact_write]
  exact ⟨irqEnOfWord v, rfl, rfl, rfl, irqEnWord_irqEnOfWord v⟩

/-- Settles O39: the two terms of `irq`, and State.reset with both enables 0. -/
theorem irqIsTheEnabledOr : Obligations.IrqIsTheEnabledOr := by
  refine ⟨fun s => ?_, rfl⟩
  simp [irq]

/-- Settles O1: each register read by name, and the ports of the reset state. -/
theorem resetReadsAsTheSpecSays : Obligations.ResetReadsAsTheSpecSays := by
  refine ⟨fun r => ?_, rfl, rfl, rfl, rfl, rfl⟩
  rw [windowRead_off]
  cases r <;> rfl

/-! ## Every reachable state -/

/-- The bits above a field that is read zero-extended are 0. -/
theorem extractLsb'_eq_zero_of_bits {w : Word} {start len : Nat}
    (h : ∀ k, start ≤ k → k < start + len → w.getLsbD k = false) :
    w.extractLsb' start len = 0#len := by
  refine BitVec.eq_of_getLsbD_eq fun k hk => ?_
  simp [h (start + k) (by omega) (by omega)]

/-- R32 (d): the reserved bits of CMD, STATUS and IRQ_EN read 0 in every state. -/
theorem reserved_bits_read_zero (s : State) :
    (readReg .cmd s).extractLsb' 8 56 = 0#56
      ∧ ((readReg .status s).getLsbD 3 = false ∧ (readReg .status s).extractLsb' 6 2 = 0#2
        ∧ (readReg .status s).extractLsb' 12 52 = 0#52)
      ∧ (readReg .irqEn s).extractLsb' 2 62 = 0#62 := by
  refine ⟨extractLsb'_eq_zero_of_bits fun k hk _ => ?_, ⟨statusWord_reserved _ (by omega),
    extractLsb'_eq_zero_of_bits fun k hk hk' => statusWord_reserved _ (by omega),
    extractLsb'_eq_zero_of_bits fun k hk _ => statusWord_reserved _ (by omega)⟩,
    extractLsb'_eq_zero_of_bits fun k hk _ => ?_⟩
  · simp [readReg, BitVec.getLsbD_of_ge s.cmdOp k hk]
  · rw [readReg, irqEnWord_getLsbD, if_neg (by omega), if_neg (by omega)]

/-- Settles O5: the invariant holds after reset and is kept by every step (O4), so a run keeps it. -/
theorem reachableStatesMeetR32 : Obligations.ReachableStatesMeetR32 := by
  intro sched k t hrun
  have hstart : Inv { State.reset with schedule := sched } := resetMeetsTheInvariant
  obtain ⟨hbusy, -, hclass, hmsb, -⟩ : Inv t := run_keeps stepKeepsTheInvariant k _ t hstart hrun
  refine ⟨hbusy, ?_, ?_, reserved_bits_read_zero t⟩
  · rw [hclass, causeClass_eq_noError_iff]
  · rwa [BitVec.msb_eq_getLsbD_last] at hmsb

end Sys2Proof.Machine
end

section
/-! PROOFS. Each register after every step, by the kind of step (spec/10_state.md R16 to R20, R25, R26). -/

namespace Sys2Proof.Machine

/-! ## STATUS -/

/-- Settles O43: only an accepted legal command sets BUSY, and a completion clears it. -/
theorem busyFollowsItsRule : Obligations.BusyFollowsItsRule := by
  rw [Obligations.BusyFollowsItsRule, offset_cmd]
  intro s t hstep
  cases stepKind_of_step hstep with
  | reset rest hr hc hw => simp [hr, Status.zero]
  | write r v rest hr hc hw =>
    cases r with
    | cmd =>
      simp only [hr, hw, writeReg_status, issue_status, if_true]
      split_ifs with hb hlegal
      · simp [hb]
      · simp [hlegal]
      · simp [hb, hlegal]
    | _ => simp [hr, hc, hw, writeReg_status]
  | quiet pend out rest hr hbc hw => simpa [hr, hw] using hbc
  | completes i rest _ hr hbc hw _ he =>
    obtain ⟨-, hc⟩ := Bool.and_eq_true_iff.mp hbc
    rw [exec_eq he]
    simp [hr, hw, hc]

/-- Settles O44: a dropped CMD write sets OVERRUN and does nothing else; a completion keeps it. -/
theorem overrunFollowsItsRule : Obligations.OverrunFollowsItsRule := by
  rw [Obligations.OverrunFollowsItsRule, offset_cmd, offset_status]
  intro s t hstep
  cases stepKind_of_step hstep with
  | reset rest hr hc hw => simp [hr, hw, Status.zero]
  | write r v rest hr hc hw =>
    cases r with
    | cmd =>
      cases hb : s.status.busy with
      | true => simp [hr, hw, writeReg_status, writeReg_latched, writeReg_cmdOp, issue_of_busy v hb, hb, statusOverrun]
      | false => simp [hr, hw, writeReg_status, issue_status, hb, apply_ite Status.overrun]
    | _ => simp [hr, hw, writeReg_status]
  | quiet pend out rest hr hbc hw => simp [hr, hw]
  | completes i rest _ hr hbc hw _ he =>
    rw [exec_eq he]
    simp [hr, hw]

/-- Settles O45: a completion and an illegal opcode set DONE; a legal command and a STATUS write clear it. -/
theorem doneFollowsItsRule : Obligations.DoneFollowsItsRule := by
  rw [Obligations.DoneFollowsItsRule, offset_cmd, offset_status]
  intro s t hstep
  cases stepKind_of_step hstep with
  | reset rest hr hc hw => simp [hr, Status.zero]
  | write r v rest hr hc hw =>
    cases r with
    | cmd =>
      simp only [hr, hw, writeReg_status, issue_status, if_true]
      split_ifs <;> simp <;> omega
    | _ => simp [hr, hc, hw, writeReg_status]
  | quiet pend out rest hr hbc hw => simp [hr, hw, hbc]
  | completes i rest _ hr hbc hw _ he =>
    rw [exec_eq he]
    simp [hr, hw, hbc]

/-- A completion step is the command L[OP] names, run on the latched operands (R78). -/
theorem completesInto_of_exec {i : Instr} {rest : List Event} {s t : State} (hi : decodeOp s.latched.op = .command i)
    (he : exec i { s with rspOut := none, schedule := rest } = .next t) : CompletesInto s t :=
  ⟨i, { s with rspOut := none, schedule := rest }, hi, rfl, he⟩

/-- Settles O46: the opcode byte decides what a CMD write does, and a completion leaves one of its command's causes. -/
theorem errAndCauseFollowTheirRule : Obligations.ErrAndCauseFollowTheirRule := by
  rw [Obligations.ErrAndCauseFollowTheirRule, offset_cmd]
  refine ⟨⟨rfl, rfl, rfl, rfl⟩, ?_⟩
  intro s t hstep
  cases stepKind_of_step hstep with
  | reset rest hr hc hw => simp [hr, Status.zero]
  | write r v rest hr hc hw =>
    cases r with
    | cmd =>
      refine ⟨by simp [hr], fun _ => ⟨fun w hwv hb h1 h5 => ?_, fun w hwv hb hill => ?_, by simp [hc], ?_⟩⟩
      · obtain rfl : v = w := by simpa [hw] using hwv
        simp [writeReg_status, issue_of_legal hb h1 h5]
      · obtain rfl : v = w := by simpa [hw] using hwv
        simp [writeReg_status, issue_of_illegal hb hill]
      · rintro (hnone | hb) -
        · simp [hw] at hnone
        · simp [writeReg_status, issue_of_busy v hb]
    | _ => simp [hr, hc, hw, writeReg_status]
  | quiet pend out rest hr hbc hw => simp [hr, hw, hbc]
  | completes i rest _ hr hbc hw hi he =>
    have herr : t.status.err = causeClass t.status.cause := by rw [exec_eq he]
    simp [hr, hw, hbc, completesInto_of_exec hi he, herr, exec_cause_ne_illegalOp he]

/-! ## OPA to OPD, CMD and RESULT -/

/-- Settles O48: a write stores into the register at its own offset (`writeReg_operands`), and nothing else does. -/
theorem operandRegistersFollowTheirRule : Obligations.OperandRegistersFollowTheirRule := by
  rw [Obligations.OperandRegistersFollowTheirRule, offset_opa, offset_opb, offset_opc, offset_opd]
  intro s t hstep
  have hread : ∀ r : RegName, windowRead r.off t = ⟨readReg r t, false⟩ := fun r => windowRead_off r t
  simp only [hread, readReg, and_self, true_and]
  cases stepKind_of_step hstep with
  | reset rest hr hc hw => simp [hr, hw]
  | write r v rest hr hc hw =>
    cases r <;> simp [hr, hw, writeReg_operands, writeReg_latched, writeReg_status]
  | quiet pend out rest hr hbc hw => simp [hr, hw]
  | completes i rest _ hr hbc hw hi he =>
    rw [exec_eq he]
    simp [hr, hw]

/-- CMD reads back as the opcode byte, with bits [63:8] at 0 (R16). -/
theorem windowRead_cmd_toNat (s : State) : (windowRead RegName.cmd.off s).rdata.toNat = s.cmdOp.toNat := by
  rw [windowRead_off, readReg, BitVec.toNat_setWidth_of_le (by decide)]

/-- Settles O49: CMD.OP after a CMD write is `issue_cmdOp`; no other write and no completion stores it. -/
theorem cmdHoldsTheLastAcceptedOpcode : Obligations.CmdHoldsTheLastAcceptedOpcode := by
  rw [Obligations.CmdHoldsTheLastAcceptedOpcode, offset_cmd]
  intro s t hstep
  refine and_left_comm.mpr ⟨windowRead_cmd_toNat t, ?_⟩
  cases stepKind_of_step hstep with
  | reset rest hr hc hw => simp [hr, hw]
  | write r v rest hr hc hw =>
    cases r with
    | cmd =>
      refine ⟨?_, fun w hwv => ?_⟩
      · simp [hr, hw, writeReg_cmdOp, issue_cmdOp, apply_ite BitVec.toNat]
      · obtain rfl : v = w := by simpa [hw] using hwv
        rfl
    | _ => simp [hr, hw, writeReg_cmdOp]
  | quiet pend out rest hr hbc hw => simp [hr, hw]
  | completes i rest _ hr hbc hw hi he =>
    rw [exec_eq he]
    simp [hr, hw]

/-- Settles O42: a completion's RESULT by how the command ended; no other step but a reset touches it. -/
theorem resultChangesOnlyAtSuccess : Obligations.ResultChangesOnlyAtSuccess := by
  intro s t hstep
  cases stepKind_of_step hstep with
  | reset rest hr hc hw => simp [hr, hc]
  | write r v rest hr hc hw => simp [hr, hc, (writeReg_frame r v s).1]
  | quiet pend out rest hr hbc hw => simp [hr, hbc]
  | completes i rest _ hr hbc hw hi he =>
    have hsched : t.schedule = rest := by rw [exec_eq he]
    have hfailed := exec_result_of_err he
    refine ⟨by simp [hr], by simp [hbc], fun _ => ⟨completesInto_of_exec hi he, hfailed, fun herr => ?_⟩⟩
    obtain ⟨hmsb, r, hs⟩ := exec_result_of_noError he herr
    exact ⟨by rwa [BitVec.msb_eq_getLsbD_last] at hmsb, r, hsched ▸ hs⟩

/-! ## The frame of a command -/

/-- What a read of an offset returns is decided by the register at that offset. -/
theorem windowRead_congr {s t : State} {off : Offset} (h : ∀ r : RegName, off = r.off → readReg r t = readReg r s) :
    windowRead off t = windowRead off s := by
  by_cases hoff : ∃ r : RegName, off = r.off
  · obtain ⟨r, rfl⟩ := hoff
    rw [windowRead_off, windowRead_off, h r rfl]
  · rw [not_exists] at hoff
    rw [windowRead, windowRead, transact_of_no_off hoff, transact_of_no_off hoff]

/-- Settles O35: `exec_eq` lists the fields a command may change. -/
theorem commandsChangeOnlyStatusAndResult : Obligations.CommandsChangeOnlyStatusAndResult := by
  rw [Obligations.CommandsChangeOnlyStatusAndResult, offset_status, offset_result]
  intro i s t h
  refine ⟨fun off hs hr => windowRead_congr fun q hq => ?_, fun herr => ?_, ?_⟩
  · have hqs : q ≠ .status := fun hc => hs (hc ▸ hq)
    have hqr : q ≠ .result := fun hc => hr (hc ▸ hq)
    rw [exec_eq h]
    cases q with
    | status => exact absurd rfl hqs
    | result => exact absurd rfl hqr
    | _ => rfl
  · rw [windowRead_off, windowRead_off, readReg, readReg, exec_result_of_err h herr]
  · rw [exec_eq h]
    simp

end Sys2Proof.Machine
end

section
/-! PROOFS. What a step does not read: the unit registers with the free values (R31, R90), and the L registers while
CSTATE = IDLE (R30). -/

namespace Sys2Proof.Machine

/-! ## The unit registers and the counter -/

/-- Other values in the unit registers and another free value counter (log 6, 7, 8). -/
def withHidden (u : Units) (n : Nat) (s : State) : State := { s with units := u, freeCount := n }

theorem agreeVisible_withHidden (u : Units) (n : Nat) (s : State) : AgreeVisible s (withHidden u n s) := rfl

theorem issue_withHidden (v : Word) (u : Units) (n : Nat) (s : State) :
    issue v (withHidden u n s) = withHidden u n (issue v s) := by
  have hbusy : (withHidden u n s).status.busy = s.status.busy := rfl
  cases hb : s.status.busy with
  | true => rw [issue_of_busy v hb, issue_of_busy v (hbusy.trans hb)]; rfl
  | false => rw [issue_of_idle v hb, issue_of_idle v (hbusy.trans hb)]; split <;> rfl

theorem writeReg_withHidden (r : RegName) (v : Word) (u : Units) (n : Nat) (s : State) :
    writeReg r v (withHidden u n s) = withHidden u n (writeReg r v s) := by
  cases r with
  | cmd => exact issue_withHidden v u n s
  | _ => rfl

theorem readReg_withHidden (r : RegName) (u : Units) (n : Nat) (s : State) :
    readReg r (withHidden u n s) = readReg r s := by
  cases r <;> rfl

/-- R31: no offset reads the unit registers, and no write changes them. -/
theorem transact_withHidden (a : Access) (u : Units) (n : Nat) (s : State) :
    transact a (withHidden u n s) = ((transact a s).1, withHidden u n (transact a s).2) := by
  by_cases ha : ∃ r : RegName, a.addr = r.off
  · obtain ⟨r, ha⟩ := ha
    rw [transact_of_off ha, transact_of_off ha, readReg_withHidden, writeReg_withHidden]
    split <;> rfl
  · rw [not_exists] at ha
    rw [transact_of_no_off ha, transact_of_no_off ha]

theorem requestTurn_withHidden (a : Access) (rest : List Event) (u : Units) (n : Nat) (s : State) :
    requestTurn a rest (withHidden u n s) = mapNext (withHidden u n) (requestTurn a rest s) := by
  have hready : reqReady false (withHidden u n s) = reqReady false s := rfl
  have hsched : setSchedule rest (withHidden u n s) = withHidden u n (setSchedule rest s) := rfl
  unfold requestTurn takeRequest
  rw [hready, hsched, transact_withHidden]
  split
  · split <;> rfl
  · rfl

/-- R90: the checks and the result of a command are functions of the latched operands; what it leaves in the units and
in the counter may differ. -/
theorem exec_withHidden (i : Instr) (u : Units) (n : Nat) (s : State) :
    ∃ u' n', exec i (withHidden u n s) = mapNext (withHidden u' n') (exec i s) := by
  have ha : opA (withHidden u n s) = opA s := rfl
  have hb : opB (withHidden u n s) = opB s := rfl
  have hc : opC (withHidden u n s) = opC s := rfl
  have hd : opD (withHidden u n s) = opD s := rfl
  cases i with
  | modexp =>
    simp only [exec, execModexp, ha, hb, hc]
    split_ifs <;> exact ⟨_, _, rfl⟩
  | modmul =>
    simp only [exec, execModmul, ha, hb, hc]
    split_ifs <;> exact ⟨_, _, rfl⟩
  | modinv =>
    simp only [exec, execModinv, ha, hc]
    split_ifs
    · exact ⟨_, _, rfl⟩
    · cases modinvRef (opA s) (opC s) <;> exact ⟨_, _, rfl⟩
  | modred =>
    simp only [exec, execModred, ha, hc]
    split_ifs <;> exact ⟨_, _, rfl⟩
  | crtDecrypt =>
    simp only [exec, execCrtDecrypt, crtDecrypt, ha, hb, hc, hd]
    split_ifs
    any_goals exact ⟨_, _, rfl⟩
    cases modinvRef (opC s) (opD s) <;> exact ⟨_, _, rfl⟩

theorem coreTurn_withHidden (u : Units) (n : Nat) (s : State) :
    ∃ u' n', coreTurn (withHidden u n s) = mapNext (withHidden u' n') (coreTurn s) := by
  have hbusy : (withHidden u n s).status.busy = s.status.busy := rfl
  have hop : inFlight (withHidden u n s) = inFlight s := rfl
  unfold coreTurn
  rw [hbusy, hop]
  split
  · cases inFlight s with
    | command i => exact exec_withHidden i u n s
    | illegalOpcode op => exact ⟨u, n, rfl⟩
  · exact ⟨u, n, rfl⟩

/-- Every step is the same one on other hidden values, and reaches the same state but for them. -/
theorem step_withHidden (u : Units) (n : Nat) (s : State) :
    ∃ u' n', step (withHidden u n s) = mapNext (withHidden u' n') (step s) := by
  have hsched : (withHidden u n s).schedule = s.schedule := rfl
  unfold step
  rw [hsched]
  cases s.schedule with
  | nil =>
    have hready : reqReady false (beginCycle (withHidden u n s)) = reqReady false (beginCycle s) := rfl
    simp only [restTurn, hready]
    split
    · exact coreTurn_withHidden u n (beginCycle s)
    · exact ⟨u, n, rfl⟩
  | cons e rest =>
    cases e with
    | request a => exact ⟨u, n, requestTurn_withHidden a rest u n (beginCycle s)⟩
    | response => exact ⟨u, n, rfl⟩
    | core => exact coreTurn_withHidden u n (setSchedule rest (beginCycle s))
    | reset => exact ⟨Units.zero, n, rfl⟩

/-- Settles O57: the step lemma `step_withHidden`, read for each of the three outcomes. -/
theorem hiddenUnitsAreNeverVisible : Obligations.HiddenUnitsAreNeverVisible := by
  intro s u n
  obtain ⟨u', n', hstep⟩ := step_withHidden u n s
  refine ⟨fun t ht => ⟨withHidden u' n' t, ?_, agreeVisible_withHidden u' n' t⟩, fun f hf => ?_, fun r hr => ?_⟩
  · exact hstep.trans (congrArg _ ht)
  · exact hstep.trans (congrArg _ hf)
  · exact hstep.trans (congrArg _ hr)

/-! ## The L registers while CSTATE = IDLE -/

/-- Other values in the L registers. -/
def withLatched (l : Latched) (s : State) : State := { s with latched := l }

/-- R30, R56: a CMD write while BUSY = 0 reads no L register; where it accepts a command it latches the operand
registers, and otherwise it leaves L as it is. -/
theorem issue_withLatched (v : Word) (l : Latched) {s : State} (hb : s.status.busy = false) :
    ∃ l', issue v (withLatched l s) = withLatched l' (issue v s)
      ∧ ((issue v s).status.busy = true → l' = (issue v s).latched) := by
  have hb' : (withLatched l s).status.busy = false := hb
  rw [issue_of_idle v hb, issue_of_idle v hb']
  split
  · exact ⟨latchCommand (opField v) s, rfl, fun _ => rfl⟩
  · exact ⟨l, rfl, fun hbusy => by simp [hb] at hbusy⟩

theorem writeReg_withLatched (r : RegName) (v : Word) (l : Latched) {s : State} (hb : s.status.busy = false) :
    ∃ l', writeReg r v (withLatched l s) = withLatched l' (writeReg r v s)
      ∧ ((writeReg r v s).status.busy = true → l' = (writeReg r v s).latched) := by
  cases r with
  | cmd => exact issue_withLatched v l hb
  | _ => exact ⟨l, rfl, fun hbusy => by simp [writeReg, hb] at hbusy⟩

theorem readReg_withLatched (r : RegName) (l : Latched) (s : State) :
    readReg r (withLatched l s) = readReg r s := by
  cases r <;> rfl

theorem transact_withLatched (a : Access) (l : Latched) {s : State} (hb : s.status.busy = false) :
    ∃ l', transact a (withLatched l s) = ((transact a s).1, withLatched l' (transact a s).2)
      ∧ ((transact a s).2.status.busy = true → l' = (transact a s).2.latched) := by
  have hidle : s.status.busy = true → l = s.latched := fun hbusy => by simp [hb] at hbusy
  by_cases ha : ∃ r : RegName, a.addr = r.off
  · obtain ⟨r, ha⟩ := ha
    rw [transact_of_off ha, transact_of_off ha, readReg_withLatched]
    split
    · obtain ⟨l', hw, hl⟩ := writeReg_withLatched r a.wdata l hb
      exact ⟨l', by rw [hw], hl⟩
    · exact ⟨l, rfl, hidle⟩
  · rw [not_exists] at ha
    rw [transact_of_no_off ha, transact_of_no_off ha]
    exact ⟨l, rfl, hidle⟩

/-- The outcome `o'` is `o` but for the L registers of the next state, which are `o`'s own where that state is BUSY. -/
def SameButIdleLatch (o o' : Host.Outcome State Fault Refusal) : Prop :=
  ∃ l', o' = mapNext (withLatched l') o ∧ ∀ t, o = .next t → t.status.busy = true → l' = t.latched

theorem sameButIdleLatch_next {t : State} (l : Latched) (hb : t.status.busy = true → l = t.latched) :
    SameButIdleLatch (.next t) (.next (withLatched l t)) := by
  refine ⟨l, rfl, fun t' ht => ?_⟩
  cases ht
  exact hb

theorem requestTurn_withLatched (a : Access) (rest : List Event) (l : Latched) {s : State}
    (hb : s.status.busy = false) :
    SameButIdleLatch (requestTurn a rest s) (requestTurn a rest (withLatched l s)) := by
  have hready : reqReady false (withLatched l s) = reqReady false s := rfl
  have hsched : setSchedule rest (withLatched l s) = withLatched l (setSchedule rest s) := rfl
  obtain ⟨l', htr, hl'⟩ := transact_withLatched a l (s := setSchedule rest s) hb
  unfold requestTurn takeRequest
  rw [hready, hsched, htr]
  split
  · split
    · exact sameButIdleLatch_next l' hl'
    · exact ⟨l, rfl, fun t ht => by cases ht⟩
  · exact sameButIdleLatch_next l fun hbusy => by simp [hb] at hbusy

theorem coreTurn_of_idle {s : State} (hb : s.status.busy = false) : coreTurn s = .next s := by
  simp [coreTurn, hb]

/-- From an idle state a step does not depend on the L registers (R30). -/
theorem step_withLatched (l : Latched) {s : State} (hb : s.status.busy = false) :
    SameButIdleLatch (step s) (step (withLatched l s)) := by
  have hidle : ∀ {t : State}, t.status = s.status → SameButIdleLatch (.next t) (.next (withLatched l t)) :=
    fun ht => sameButIdleLatch_next l fun hbusy => by simp [ht, hb] at hbusy
  have hsched : (withLatched l s).schedule = s.schedule := rfl
  unfold step
  rw [hsched]
  cases s.schedule with
  | nil =>
    have hready : reqReady false (beginCycle (withLatched l s)) = reqReady false (beginCycle s) := rfl
    simp only [restTurn, hready]
    split
    · rw [coreTurn_of_idle (s := beginCycle s) hb, coreTurn_of_idle (s := beginCycle (withLatched l s)) hb]
      exact hidle (t := beginCycle s) rfl
    · exact hidle (t := deliver (beginCycle s)) rfl
  | cons e rest =>
    cases e with
    | request a => exact requestTurn_withLatched a rest l (s := beginCycle s) hb
    | response => exact hidle (t := deliver (setSchedule rest (beginCycle s))) rfl
    | core =>
      dsimp only
      rw [coreTurn_of_idle (s := setSchedule rest (beginCycle s)) hb,
        coreTurn_of_idle (s := setSchedule rest (beginCycle (withLatched l s))) hb]
      exact hidle (t := setSchedule rest (beginCycle s)) rfl
    | reset => exact sameButIdleLatch_next (t := resetCore (setSchedule rest (beginCycle s))) _ fun _ => rfl

theorem requestTurn_ne_fault (a : Access) (rest : List Event) (s : State) (f : Fault) :
    requestTurn a rest s ≠ .fault f := by
  unfold requestTurn takeRequest
  split_ifs <;> exact nofun

/-- The one fault is the core's turn on a command in flight (log 15), so an idle state has none. -/
theorem step_ne_fault_of_idle {s : State} (hb : s.status.busy = false) (f : Fault) : step s ≠ .fault f := by
  unfold step
  cases s.schedule with
  | nil =>
    simp only [restTurn, coreTurn_of_idle (s := beginCycle s) hb]
    split <;> exact nofun
  | cons e rest =>
    cases e with
    | request a => exact requestTurn_ne_fault a rest _ f
    | core =>
      simp only [coreTurn_of_idle (s := setSchedule rest (beginCycle s)) hb]
      exact nofun
    | _ => exact nofun

theorem cstate_eq_idle_iff (s : State) : cstate s = .idle ↔ s.status.busy = false := by
  cases hb : s.status.busy <;> simp [cstate, hb]

/-- Settles O58: the step lemma `step_withLatched`, read for a next state and for a refusal. -/
theorem latchedCommandIsNotReadWhileIdle : Obligations.LatchedCommandIsNotReadWhileIdle := by
  intro s l hidle
  have hb := (cstate_eq_idle_iff s).mp hidle
  obtain ⟨l', hstep, hl'⟩ := step_withLatched l hb
  refine ⟨fun t ht => ⟨l', ?_, hl' t ht⟩, fun r hr => ?_, step_ne_fault_of_idle hb⟩
  · exact hstep.trans (congrArg _ ht)
  · exact hstep.trans (congrArg _ hr)

end Sys2Proof.Machine
end

section
/-! PROOFS. One bus access at a time: the window as the tables of spec/20_memory.md give it, bus errors, and what may be
repeated (R39 to R45). -/

namespace Sys2Proof.Machine

/-! ## Bus errors (R39, R40) -/

theorem ne_off_of_misaligned {off : Offset} (h : off.toNat % 8 ≠ 0) (r : RegName) : off ≠ r.off := by
  rintro rfl
  exact h ((aligned_iff r.off).mp (aligned_off r))

/-- Settles O10: a misaligned offset is no register's. -/
theorem misalignedAccessIsBusError : Obligations.MisalignedAccessIsBusError :=
  fun s _ ha => transact_of_no_off (ne_off_of_misaligned ha) s

theorem off_notMem_reserved (r : RegName) : r.off ∉ [0x48#7, 0x50#7, 0x58#7, 0x60#7, 0x68#7, 0x70#7, 0x78#7] := by
  cases r <;> decide

/-- Settles O11: a reserved offset is no register's. -/
theorem reservedOffsetIsBusError : Obligations.ReservedOffsetIsBusError :=
  fun s _ ha => transact_of_no_off (fun r hr => off_notMem_reserved r (hr ▸ ha)) s

/-! ## The tables of R41 and R42 -/

theorem offset_id : 0x00#7 = RegName.id.off := rfl

/-- R41: the shifts and ORs of a STATUS read lay its fields side by side. -/
theorem statusWord_eq_append (st : Status) :
    statusWord st = (causeCode st.cause ++ 0#2 ++ errCode st.err ++ 0#1 ++ BitVec.ofBool st.overrun
      ++ BitVec.ofBool st.done ++ BitVec.ofBool st.busy).setWidth 64 := by
  simp only [BitVec.setWidth_append_eq_shiftLeft_setWidth_or]
  simp [statusWord, BitVec.shiftLeft_or_distrib]

theorem irqEnWord_eq_append (e : IrqEn) :
    irqEnWord e = (BitVec.ofBool e.overrunIe ++ BitVec.ofBool e.doneIe).setWidth 64 :=
  BitVec.setWidth_append_eq_shiftLeft_setWidth_or.symm

/-- Settles O7: each offset is a register's, and `readReg` is that register's row of R41. -/
theorem windowReadsFollowTheTable : Obligations.WindowReadsFollowTheTable := by
  rw [Obligations.WindowReadsFollowTheTable, offset_id, offset_cmd, offset_status, offset_irqEn, offset_opa, offset_opb,
    offset_opc, offset_opd, offset_result]
  intro s
  rw [← statusWord_eq_append, ← irqEnWord_eq_append]
  simp only [transact_read]
  exact ⟨rfl, rfl, rfl, rfl, rfl, rfl, rfl, rfl, rfl⟩

/-- R22: a bit written 1 clears its field, a bit written 0 keeps it. -/
theorem statusW1c_eq (v : Word) (st : Status) :
    statusW1c v st = { st with
      done := if v.getLsbD 1 then false else st.done
      overrun := if v.getLsbD 2 then false else st.overrun } := by
  unfold statusW1c
  congr 1
  · cases v.getLsbD 1 <;> simp
  · cases v.getLsbD 2 <;> simp

/-- Settles O8: each offset is a register's, and `writeReg` is that register's row of R42. -/
theorem windowWritesFollowTheTable : Obligations.WindowWritesFollowTheTable := by
  rw [Obligations.WindowWritesFollowTheTable, offset_id, offset_status, offset_irqEn, offset_opa, offset_opb,
    offset_opc, offset_opd, offset_result]
  intro s v
  rw [← statusW1c_eq]
  simp only [transact_write]
  exact ⟨rfl, rfl, rfl, rfl, rfl, rfl, rfl, rfl⟩

/-- Settles O9: `writeReg` leaves ID and RESULT alone. -/
theorem readOnlyWritesAreIgnored : Obligations.ReadOnlyWritesAreIgnored := by
  rw [Obligations.ReadOnlyWritesAreIgnored, offset_id, offset_result]
  rintro s a hw (ha | ha)
  · exact (transact_of_off ha s).trans (if_pos hw)
  · exact (transact_of_off ha s).trans (if_pos hw)

/-! ## What may be repeated (R45) -/

/-- A read, like a bus error, changes no state (R41). -/
theorem transact_state_of_read {a : Access} (hw : a.write = false) (s : State) : (transact a s).2 = s := by
  rcases transact_cases a s with h | ⟨r, -, -, h⟩ | ⟨r, -, hw', -⟩
  · rw [h]
  · rw [h]
  · cases hw.symm.trans hw'

/-- Every write but a CMD write stores the same values the second time (R45). -/
theorem writeReg_writeReg_same {r : RegName} (hr : r ≠ .cmd) (v : Word) (s : State) :
    writeReg r v (writeReg r v s) = writeReg r v s := by
  cases r with
  | cmd => exact absurd rfl hr
  | status => simp [writeReg, statusW1c]
  | _ => rfl

/-- Settles O13: a read has no effect to repeat, and a write repeats by `writeReg_writeReg_same`. -/
theorem accessesButCmdWritesAreIdempotent : Obligations.AccessesButCmdWritesAreIdempotent := by
  rw [Obligations.AccessesButCmdWritesAreIdempotent, offset_cmd]
  intro s a
  refine ⟨fun hw => transact_state_of_read hw s, fun hcmd => ?_⟩
  rcases transact_cases a s with h | ⟨r, -, -, h⟩ | ⟨r, ha, hw, h⟩
  · rw [h, h]
  · rw [h, h]
  · have hr : r ≠ .cmd := fun hr => hcmd hw (hr ▸ ha)
    rw [h, transact_of_off ha, if_pos hw, writeReg_writeReg_same hr]

end Sys2Proof.Machine
end

section
/-! PROOFS. A request and its response over time: the take in one step, the response later, and the steps of an idle
CORE (spec/20_memory.md R33 to R35, R38; spec/70_reset_and_hazards.md R91, R92). -/

namespace Sys2Proof.Machine

/-! ## The take (R34, R35, R38) -/

theorem readReg_ports (r : RegName) (s : State) (pend out : Option Response) (sched : List Event) :
    readReg r { s with rspPending := pend, rspOut := out, schedule := sched } = readReg r s := by
  cases r <;> rfl

/-- A transaction neither reads nor changes the response port and the schedule. -/
theorem transact_ports (a : Access) (s : State) (pend out : Option Response) (sched : List Event) :
    transact a { s with rspPending := pend, rspOut := out, schedule := sched }
      = ((transact a s).1, { (transact a s).2 with rspPending := pend, rspOut := out, schedule := sched }) := by
  by_cases ha : ∃ r : RegName, a.addr = r.off
  · obtain ⟨r, ha⟩ := ha
    rw [transact_of_off ha, transact_of_off ha, readReg_ports, writeReg_ports]
    split <;> rfl
  · rw [not_exists] at ha
    rw [transact_of_no_off ha, transact_of_no_off ha]

theorem fullWidth_iff (a : Access) : a.fullWidth = true ↔ a.width = .dword := by
  simp [Access.fullWidth]

/-- The state after the take of `a` from `s`, with `rest` left in the schedule (R34, R35, log 1). -/
def takenState (a : Access) (rest : List Event) (s : State) : State :=
  { (transact a s).2 with schedule := rest, rspOut := none, rspPending := some (transact a s).1 }

theorem takeRequest_eq (a : Access) (rest : List Event) (s : State) :
    takeRequest a (setSchedule rest (beginCycle s)) =
      if a.fullWidth then .next (takenState a rest s) else .refused (.narrowAccess a.width) := by
  have htr : transact a (setSchedule rest (beginCycle s)) = _ := transact_ports a s s.rspPending none rest
  rw [takeRequest, htr]
  rfl

theorem step_of_request {a : Access} {rest : List Event} {s : State} (hs : s.schedule = .request a :: rest)
    (hp : s.rspPending = none) :
    step s = if a.fullWidth then .next (takenState a rest s) else .refused (.narrowAccess a.width) := by
  rw [← takeRequest_eq]
  simp [step, hs, requestTurn, reqReady, hp]

/-- R34: while a response is pending a request at the head of the schedule stays there, and the step presents the
response (log 4). -/
theorem step_of_held_request {a : Access} {rest : List Event} {s : State} {r : Response}
    (hs : s.schedule = .request a :: rest) (hp : s.rspPending = some r) :
    step s = .next (deliver (beginCycle s)) := by
  simp [step, hs, requestTurn, reqReady, hp]

/-- Settles O6: the step is the take, and a transaction stands apart from the port and the schedule. -/
theorem requestIsOneAtomicStep : Obligations.RequestIsOneAtomicStep := by
  intro s a rest hs hp hw
  rw [step_of_request hs hp, if_pos ((fullWidth_iff a).mpr hw)]
  rfl

/-- Settles O12: the take asks for the width alone. -/
theorem narrowAccessIsRefused : Obligations.NarrowAccessIsRefused := by
  intro s a rest hs hp
  rw [step_of_request hs hp, Ne, ← fullWidth_iff]
  exact ⟨fun hw => if_neg hw, fun hw => ⟨_, if_pos hw⟩⟩

/-! ## The response (R33, R34, R92) -/

/-- A completion, like a turn of an idle core, leaves the response port alone (R78, log 3). -/
theorem coreTurn_ports {s t : State} (h : coreTurn s = .next t) :
    t.rspPending = s.rspPending ∧ t.rspOut = s.rspOut := by
  rcases coreTurn_next h with ⟨-, i, -, he⟩ | ⟨-, rfl⟩
  · rw [exec_eq he]
    exact ⟨rfl, rfl⟩
  · exact ⟨rfl, rfl⟩

/-- What a step does with the response port: the take of a request leaves its response pending, a delivery presents what
was pending, a turn of the core leaves the pending response, and a reset loses it (R34, R92). -/
theorem step_ports {s t : State} (h : step s = .next t) :
    (s.rspPending = none ∧ t.rspOut = none)
      ∨ (t.rspPending = none ∧ t.rspOut = s.rspPending)
      ∨ (t.rspPending = s.rspPending ∧ t.rspOut = none)
      ∨ ((∃ rest, s.schedule = .reset :: rest) ∧ t.rspPending = none ∧ t.rspOut = none) := by
  rcases step_cases h with ⟨a, rest, -, hp, htake⟩ | ⟨-, -, rfl⟩ | ⟨rest, -, rfl⟩ | ⟨rest, -, hturn⟩ |
    ⟨-, -, hturn⟩ | ⟨rest, hs, rfl⟩
  · obtain ⟨hw, -⟩ := takeRequest_next htake
    rw [takeRequest_eq, if_pos hw] at htake
    cases htake
    exact .inl ⟨hp, rfl⟩
  · exact .inr (.inl ⟨rfl, rfl⟩)
  · exact .inr (.inl ⟨rfl, rfl⟩)
  · exact .inr (.inr (.inl (coreTurn_ports hturn)))
  · exact .inr (.inr (.inl (coreTurn_ports hturn)))
  · exact .inr (.inr (.inr ⟨⟨rest, hs⟩, rfl, rfl⟩))

/-- Settles O14: the port after a step by `step_ports`; a held request by `step_of_held_request`. -/
theorem responseFollowsItsRequest : Obligations.ResponseFollowsItsRequest := by
  refine ⟨fun s t hstep => ?_, fun s a rest r hs hp => ?_⟩
  · rcases step_ports hstep with ⟨hp, hout⟩ | ⟨hpend, hout⟩ | ⟨hpend, hout⟩ | ⟨⟨rest, hs⟩, hpend, hout⟩
    · exact ⟨fun hne => absurd hout hne, fun hne => absurd hp hne⟩
    · exact ⟨fun _ => ⟨hout, hpend⟩, fun _ => .inr (.inl ⟨hpend, hout⟩)⟩
    · exact ⟨fun hne => absurd hout hne, fun _ => .inl ⟨hpend, hout⟩⟩
    · exact ⟨fun hne => absurd hout hne, fun _ => .inr (.inr ⟨rest, hs, hpend, hout⟩)⟩
  · rw [step_of_held_request hs hp, ← hp]
    rfl

/-! ## Steps of an idle CORE (R91) -/

theorem schedule_of_resets {s : State} (h : resets s = true) : ∃ rest, s.schedule = .reset :: rest := by
  cases hs : s.schedule with
  | nil => simp [resets, hs] at h
  | cons e rest =>
    cases e with
    | reset => exact ⟨rest, rfl⟩
    | _ => simp [resets, hs] at h

/-- A write that is taken is the request at the head of the schedule. -/
theorem schedule_of_takenWrite {off : Offset} {s : State} {v : Word} (h : takenWrite off s = some v) :
    ∃ a rest, s.schedule = .request a :: rest ∧ a.write = true := by
  cases hs : s.schedule with
  | nil => simp [takenWrite, hs] at h
  | cons e rest =>
    cases e with
    | request a =>
      simp only [takenWrite, hs, Option.ite_none_right_eq_some, Bool.and_eq_true] at h
      obtain ⟨⟨⟨-, ha⟩, -⟩, -⟩ := h
      exact ⟨a, rest, rfl, ha⟩
    | _ => simp [takenWrite, hs] at h

/-- Settles O47: of the four kinds of step only a quiet one is left, and it touches no register. -/
theorem idleStepsChangeNoRegister : Obligations.IdleStepsChangeNoRegister := by
  intro s t hidle hstep hnowrite hnoreset
  cases stepKind_of_step hstep with
  | reset _ hr =>
    obtain ⟨rest, hs⟩ := schedule_of_resets hr
    exact absurd hs (hnoreset rest)
  | write r v _ _ _ hw =>
    obtain ⟨a, rest, hs, ha⟩ := schedule_of_takenWrite ((hw r).trans (if_pos rfl))
    cases ha.symm.trans (hnowrite a rest hs)
  | quiet pend out rest =>
    refine ⟨fun off => windowRead_congr fun r _ => readReg_ports r s pend out rest, rfl, rfl, rfl, ?_⟩
    exact (cstate_eq_idle_iff _).mpr hidle
  | completes _ _ _ _ hbc => simp [hidle] at hbc

end Sys2Proof.Machine
end

section
/-! PROOFS. CORE's window on the platform: its addresses and its bytes (spec/20_memory.md R36, R37, R44). -/

namespace Sys2Proof.Machine

theorem reqAddr_base_add (off : Offset) : reqAddr (Config.base + off.toNat) = some off := by
  have hlt : off.toNat < Config.window := off.isLt
  rw [reqAddr, if_pos (by omega), Nat.add_sub_cancel_left, BitVec.ofNat_toNat, BitVec.setWidth_eq]

theorem reqAddr_outside {pa : Nat} (h : pa < Config.base ∨ Config.base + Config.window ≤ pa) : reqAddr pa = none :=
  if_neg (by omega)

/-- Settles O15: BASE counts windows, and `reqAddr` answers on the window only. -/
theorem platformAddressesMapToOffsets : Obligations.PlatformAddressesMapToOffsets :=
  ⟨Nat.mul_mod_right 0x80 Config.baseBlock, reqAddr_base_add, fun _ => reqAddr_outside⟩

/-- R44: two bytes of a register never share an address. -/
theorem platformByteAddr_injective (r : RegName) : Function.Injective (platformByteAddr r) := by
  intro j k h
  exact Config.platformByteOrder.injective (Fin.ext (Nat.add_left_cancel h))

/-- R44: the bytes of a register fill its eight addresses. -/
theorem mem_range_platformByteAddr (r : RegName) (pa : Nat) :
    pa ∈ Set.range (platformByteAddr r) ↔ Config.base + r.off.toNat ≤ pa ∧ pa < Config.base + r.off.toNat + 8 := by
  constructor
  · rintro ⟨k, rfl⟩
    have hlt := (Config.platformByteOrder k).isLt
    unfold platformByteAddr
    omega
  · intro ⟨hle, hlt⟩
    refine ⟨Config.platformByteOrder.symm ⟨pa - (Config.base + r.off.toNat), by omega⟩, ?_⟩
    rw [platformByteAddr, Equiv.apply_symm_apply]
    exact Nat.add_sub_of_le hle

/-- Settles O16: the byte order permutes the eight bytes, so it is one to one and onto the eight addresses. -/
theorem platformBytesCoverTheRegister : Obligations.PlatformBytesCoverTheRegister :=
  fun r pa => (mem_range_platformByteAddr r pa).symm.trans (platformByteAddr_injective r).mem_range_iff_existsUnique

end Sys2Proof.Machine
end

section
/-! PROOFS. The command word: its decoder against its encoder, its reserved bits, and what a CMD write of it does
(spec/30_encoding.md R52, R53, R56 to R59). -/

namespace Sys2Proof.Machine

/-! ## The opcode byte (R52, R58) -/

theorem opField_eq_ofNat (v : Word) : opField v = BitVec.ofNat 8 v.toNat := rfl

/-- R58: the reserved bits are no part of the opcode byte. -/
theorem opField_append (high : BitVec 56) (op : Op) : opField (high ++ op) = op :=
  BitVec.extractLsb'_append_eq_right

theorem opField_and_mask (v : Word) : opField (v &&& 0xFF#64) = opField v := by
  refine BitVec.eq_of_toNat_eq ?_
  have hmask : v.toNat &&& 0xFF = v.toNat % 256 := Nat.and_two_pow_sub_one_eq_mod v.toNat 8
  simp [hmask]

theorem encode_toNat (i : Instr) : (encode i).toNat = (opcode i).toNat := by cases i <;> rfl

/-! ## The decoder (R53, R57, R59) -/

theorem decode_of_opField {v : Word} {i : Instr} (h : opField v = opcode i) : decode v = .command i := by
  rw [decode, h, decodeOp_opcode]

theorem opField_of_decode {v : Word} {i : Instr} (h : decode v = .command i) : opField v = opcode i := by
  rcases decodeOp_cases (opField v) with ⟨j, hj, ho⟩ | hill
  · cases hj.symm.trans h
    exact ho
  · cases hill.symm.trans h

theorem decode_of_illegal {v : Word} (hv : v.toNat % 256 = 0 ∨ 5 < v.toNat % 256) :
    decode v = .illegalOpcode (opField v) := by
  rcases decodeOp_cases (opField v) with ⟨i, hi, -⟩ | hill
  · have hlegal := (decode_command_iff v).mp ⟨i, hi⟩
    omega
  · exact hill

/-- Settles O17: the decoder answers a command exactly on that command's opcode byte. -/
theorem decodeAndEncodeAgree : Obligations.DecodeAndEncodeAgree := by
  refine ⟨fun i _ => ⟨decode_of_opField (opField_encode i), fun high => decode_of_opField (opField_append high _)⟩,
    fun v i h => ?_, fun v => decode_of_illegal⟩
  rw [encode_toNat, ← opField_of_decode h, opField_toNat]

/-- Settles O18, on the seven words. -/
theorem sampleCommandWordsDecode : Obligations.SampleCommandWordsDecode := by
  unfold Obligations.SampleCommandWordsDecode
  decide

/-! ## A CMD write (R56 to R58) -/

/-- R58: issue reads nothing of the word but its opcode byte. -/
theorem issue_congr {v w : Word} (h : opField v = opField w) (s : State) : issue v s = issue w s := by
  rw [issue, issue, decode, decode, h]

/-- Settles O20: the mask keeps the opcode byte, which is all that issue reads. -/
theorem reservedCommandBitsAreIgnored : Obligations.ReservedCommandBitsAreIgnored := by
  rw [Obligations.ReservedCommandBitsAreIgnored, offset_cmd]
  intro s v
  refine ⟨?_, decode_of_illegal⟩
  rw [transact_write, transact_write]
  exact congrArg _ (issue_congr (opField_and_mask v).symm s)

/-- R57: an illegal opcode is answered at once, so an idle CORE stays idle. -/
theorem statusIllegal_of_idle {st : Status} (hb : st.busy = false) :
    statusIllegal st = ⟨false, true, st.overrun, .illegal, .illegalOp⟩ := by
  rw [← hb]
  rfl

theorem irq_illegalCommand (op : Op) {s : State} (hie : s.irqEn.doneIe = true) : irq (illegalCommand op s) = true := by
  simp [irq, hie]

/-- Settles O19: a CMD write is `issue`, and BUSY and the opcode byte say which of its three outcomes it has. -/
theorem cmdWriteIssues : Obligations.CmdWriteIssues := by
  rw [Obligations.CmdWriteIssues, offset_cmd]
  intro s v
  rw [transact_write, writeReg, ← opField_eq_ofNat]
  refine ⟨fun hb => ?_, fun hb h1 h5 => ?_, fun hb hv => ?_⟩
  · rw [issue_of_busy v hb]
    rfl
  · rw [issue_of_legal hb h1 h5]
    rfl
  · rw [issue_of_illegal hb hv, ← statusIllegal_of_idle hb]
    exact ⟨rfl, irq_illegalCommand (opField v)⟩

/-- An idle CORE accepts a word that decodes to a command (R56). -/
theorem issue_of_decode {v : Word} {i : Instr} (h : decode v = .command i) {s : State} (hb : s.status.busy = false) :
    issue v s = acceptCommand (opcode i) s := by
  simp [issue, hb, h, opField_of_decode h]

/-! ## The word placed for the next step (log 14) -/

/-- The placed word is accepted whatever was in flight: the acceptance writes every field it depends on. -/
theorem withFetchWord_of_decode {v : Word} {i : Instr} (h : decode v = .command i) (s : State) :
    s.withFetchWord 64 v.toNat = setSchedule (.core :: s.schedule) (acceptCommand (opcode i) s) := by
  rw [State.withFetchWord, placeCommand, Nat.mod_eq_of_lt v.isLt, BitVec.ofNat_toNat, BitVec.setWidth_eq,
    issue_of_decode h rfl]
  rfl

/-- The core's turn on a command just accepted is that command's completion step (R78). -/
theorem coreTurn_of_accepted (i : Instr) {s : State} (hb : s.status.busy = true) (hop : s.latched.op = opcode i) :
    coreTurn s = exec i s := by
  simp [coreTurn, inFlight, hb, hop, decodeOp_opcode]

/-- Settles O23: the placed word is accepted, and the core's turn is at the head of the schedule. -/
theorem placedCommandWordRunsNext : Obligations.PlacedCommandWordRunsNext := by
  intro s v i h
  rw [withFetchWord_of_decode h]
  exact coreTurn_of_accepted i
    (s := setSchedule s.schedule (beginCycle (setSchedule (.core :: s.schedule) (acceptCommand (opcode i) s)))) rfl rfl

end Sys2Proof.Machine
end

section
/-! PROOFS. The operands of a command: those its format does not read (spec/30_encoding.md R54), and those the `WR`
lines of a pseudo-instruction put into place (R60, R61). -/

namespace Sys2Proof.Machine

/-! ## Latched operands outside the format (R54) -/

/-- A command's completion depends on L only through the operands its format reads, and leaves L as it is. -/
theorem exec_withLatched (i : Instr) {l : Latched} {s : State} (ha : l.a = s.latched.a) (hc : l.c = s.latched.c)
    (hb : readsB (formatOf i) = true → l.b = s.latched.b) (hd : readsD (formatOf i) = true → l.d = s.latched.d) :
    exec i (withLatched l s) = mapNext (withLatched l) (exec i s) := by
  have hA : opA (withLatched l s) = opA s := congrArg sval ha
  have hC : opC (withLatched l s) = opC s := congrArg sval hc
  have hB : readsB (formatOf i) = true → opB (withLatched l s) = opB s := fun h => congrArg sval (hb h)
  have hD : readsD (formatOf i) = true → opD (withLatched l s) = opD s := fun h => congrArg sval (hd h)
  cases i with
  | modexp =>
    simp only [exec, execModexp, hA, hB rfl, hC]
    split_ifs <;> rfl
  | modmul =>
    simp only [exec, execModmul, hA, hB rfl, hC]
    split_ifs <;> rfl
  | modinv =>
    simp only [exec, execModinv, hA, hC]
    split_ifs
    · rfl
    · cases modinvRef (opA s) (opC s) <;> rfl
  | modred =>
    simp only [exec, execModred, hA, hC]
    split_ifs <;> rfl
  | crtDecrypt =>
    simp only [exec, execCrtDecrypt, crtDecrypt, hA, hB rfl, hC, hD rfl]
    split_ifs
    any_goals rfl
    cases modinvRef (opC s) (opD s) <;> rfl

/-- Settles O37: the changed L agrees with the old one on what the format reads, so `exec_withLatched` applies. -/
theorem unreadLatchedOperandsAreIgnored : Obligations.UnreadLatchedOperandsAreIgnored := by
  refine ⟨⟨rfl, rfl, rfl, rfl, rfl⟩, fun i s b d => ?_⟩
  obtain ⟨t, ht, -⟩ := exec_ends i s
  refine ⟨t, withLatched _ t, ht, (exec_withLatched i ?_ ?_ ?_ ?_).trans (congrArg (mapNext _) ht), rfl, rfl⟩
  · rfl
  · rfl
  · exact fun hreads => if_pos hreads
  · exact fun hreads => if_pos hreads

/-! ## The `WR` lines of a pseudo-instruction (R60, R61) -/

/-- The 64 bits a `WR` line writes for an operand; 0 stands for a name that is not bound. -/
def operandWord (names : List (Nat × Word)) (v : HostValue) : Word := (hostValue names v).getD 0#64

theorem hostValue_eq_operandWord {names : List (Nat × Word)} {v : HostValue} (h : (hostValue names v).isSome = true) :
    hostValue names v = some (operandWord names v) := by
  obtain ⟨w, hw⟩ := Option.isSome_iff_exists.mp h
  rw [operandWord, hw, Option.getD_some]

/-- CORE after the operand writes `ops`, in their order. -/
def writeOperands (names : List (Nat × Word)) : List (RegName × HostValue) → State → State
  | [], s => s
  | x :: ops, s => writeOperands names ops (writeReg x.1 (operandWord names x.2) s)

/-- A host at a row of `WR` lines whose values are known executes them all and is at the line after them. -/
theorem hostLines_writeOperands {program rest : List HostLine} {names : List (Nat × Word)} (n : Nat) :
    ∀ (ops : List (RegName × HostValue)) (k : Nat) (s : State),
      program.drop k = ops.map (fun x => .wr x.1 x.2) ++ rest →
      (∀ x ∈ ops, hostValue names x.2 = some (operandWord names x.2)) →
      hostLines (ops.length + n) (⟨program, k, names⟩, s) =
        hostLines n (⟨program, k + ops.length, names⟩, writeOperands names ops s)
  | [], k, s, _, _ => by simp [writeOperands]
  | x :: ops, k, s, hprog, hval => by
    have hline : program[k]? = some (.wr x.1 x.2) := by rw [← List.head?_drop, hprog]; rfl
    have htail : program.drop (k + 1) = ops.map (fun x => .wr x.1 x.2) ++ rest := by
      rw [← List.tail_drop, hprog]; rfl
    obtain ⟨hx, hops⟩ := List.forall_mem_cons.mp hval
    rw [List.length_cons, Nat.add_right_comm, hostLines_wr _ s hline hx, Nat.add_comm ops.length 1, ← Nat.add_assoc]
    exact hostLines_writeOperands n ops (k + 1) _ htail hops

/-- The CMD line of an expansion writes the command's word (R61). -/
theorem hostValue_opcode (names : List (Nat × Word)) (i : Instr) :
    hostValue names (.lit (opcode i).toNat) = some (encode i) := by
  cases i <;> rfl

/-- The operand writes leave STATUS alone (R42). -/
theorem writeOperands_pseudoOperands_status (names : List (Nat × Word)) (p : Pseudo) (s : State) :
    (writeOperands names (pseudoOperands p) s).status = s.status := by
  cases p <;> rfl

theorem writeOperands_result (names : List (Nat × Word)) :
    ∀ (ops : List (RegName × HostValue)) (s : State), (writeOperands names ops s).result = s.result
  | [], _ => rfl
  | _ :: ops, _ => (writeOperands_result names ops _).trans (writeReg_frame _ _ _).1

/-- The `WR` lines of a pseudo-instruction, run on an idle CORE: the operands are written and the command is accepted,
and the host is at the line after them (R56, R61). -/
theorem hostLines_pseudoExpand {p : Pseudo} {names : List (Nat × Word)} {s : State} (hb : s.status.busy = false)
    (hval : ∀ x ∈ pseudoOperands p, hostValue names x.2 = some (operandWord names x.2)) :
    hostLines ((pseudoExpand p).length - 3) (⟨pseudoExpand p, 0, names⟩, s) =
      some (⟨pseudoExpand p, (pseudoOperands p).length + 1, names⟩,
        acceptCommand (opcode (pseudoCommand p)) (writeOperands names (pseudoOperands p) s)) := by
  have hlen : (pseudoExpand p).length - 3 = (pseudoOperands p).length + 1 := by simp [pseudoExpand, pseudoTail]
  have hprog : (pseudoExpand p).drop 0 =
      (pseudoOperands p).map (fun x => .wr x.1 x.2) ++ pseudoTail (pseudoCommand p) := rfl
  have hcmd : (pseudoExpand p)[0 + (pseudoOperands p).length]? =
      some (.wr .cmd (.lit (opcode (pseudoCommand p)).toNat)) := by simp [pseudoExpand, pseudoTail]
  have hidle : (writeOperands names (pseudoOperands p) s).status.busy = false := by
    rw [writeOperands_pseudoOperands_status, hb]
  rw [hlen, hostLines_writeOperands 1 (pseudoOperands p) 0 s hprog hval,
    hostLines_wr 0 _ hcmd (hostValue_opcode names _), writeReg,
    issue_of_decode (decode_of_opField (opField_encode _)) hidle, hostLines, hostAdvance, Nat.zero_add]

/-- Settles O21: by `hostLines_pseudoExpand`, and the acceptance latches each operand register as it was written. -/
theorem pseudoInstructionIssuesItsCommand : Obligations.PseudoInstructionIssuesItsCommand := by
  intro p names s hb hbound
  have hval : ∀ x ∈ pseudoOperands p, hostValue names x.2 = some (operandWord names x.2) :=
    fun x hx => hostValue_eq_operandWord (hbound x hx)
  refine ⟨_, _, hostLines_pseudoExpand hb hval, rfl, ?_, rfl, rfl, writeOperands_result names _ s, rfl, ?_⟩
  · simp [pseudoExpand, pseudoTail]
  · cases p <;> simpa [pseudoOperands, writeOperands, writeReg, latchCommand] using hval

end Sys2Proof.Machine
end

section
/-! PROOFS. The exponentiation unit's reference algorithm computes the power (spec/40_modexp.md R63), and MODEXP and
MODMUL complete with the results of R62, R64 and R65. -/

namespace Sys2Proof.Machine

/-! ## The exponentiation loop (R63) -/

/-- What the unit holds after the seed and `k` turns on exponent `n`: the low `k + 1` bits are in the accumulator, the
others are still to come (R63). -/
def expAfter (b m : Int) (n k : Nat) : ExpWork :=
  { eb := b ^ 2 ^ k % m
    ee := ((n / 2 ^ (k + 1) : Nat) : Int)
    eacc := b ^ (n % 2 ^ (k + 1)) % m }

/-- One more bit of the exponent: set, it multiplies the accumulated power by that bit's square; clear, it changes
nothing. -/
theorem pow_mod_two_pow_succ (b m : Int) (n j : Nat) :
    b ^ (n % 2 ^ (j + 1)) % m =
      if n / 2 ^ j % 2 = 1 then mulmod (b ^ (n % 2 ^ j) % m) (b ^ 2 ^ j % m) m else b ^ (n % 2 ^ j) % m := by
  rw [pow_succ, Nat.mod_mul]
  rcases Nat.mod_two_eq_zero_or_one (n / 2 ^ j) with hbit | hbit
  · simp [hbit]
  · rw [hbit, if_pos rfl, mul_one, pow_add]
    exact Int.mul_emod _ _ _

/-- A bit of a natural exponent as `expSeed` and `expIter` test it. -/
theorem modFloor_two_natCast_eq_one (n : Nat) : modFloor n 2 = 1 ↔ n % 2 = 1 := by
  unfold modFloor
  omega

theorem expSeed_eq (b m : Int) (n : Nat) : expSeed b n m = expAfter b m n 0 := by
  simp only [expSeed, expAfter, ExpWork.mk.injEq, modFloor_two_natCast_eq_one]
  refine ⟨by simp [modFloor], by simp [divFloor], ?_⟩
  rcases Nat.mod_two_eq_zero_or_one n with hbit | hbit <;> simp [hbit, modFloor]

theorem expIter_expAfter (b m : Int) (n k : Nat) : expIter m (expAfter b m n k) = expAfter b m n (k + 1) := by
  have hsquare : mulmod (b ^ 2 ^ k % m) (b ^ 2 ^ k % m) m = b ^ 2 ^ (k + 1) % m := by
    rw [pow_succ 2 k, pow_mul, sq]
    exact (Int.mul_emod _ _ _).symm
  simp only [expIter, expAfter, ExpWork.mk.injEq, hsquare, modFloor_two_natCast_eq_one, true_and]
  refine ⟨?_, (pow_mod_two_pow_succ b m n (k + 1)).symm⟩
  rw [pow_succ 2 (k + 1), ← Nat.div_div_eq_div_mul]
  rfl

theorem expIter_iterate_expSeed (b m : Int) (n k : Nat) : (expIter m)^[k] (expSeed b n m) = expAfter b m n k := by
  induction k with
  | zero => exact expSeed_eq b m n
  | succ k ih => rw [Function.iterate_succ_apply', ih, expIter_expAfter]

/-- Settles O52: the working values after `k` turns are `expAfter`, read on the natural number `e`. -/
theorem exponentiationLoopInvariant : Obligations.ExponentiationLoopInvariant := by
  intro b e m k _ he
  lift e to Nat using he
  have htoNat : ((e : Int) % 2 ^ (k + 1)).toNat = e % 2 ^ (k + 1) := by exact_mod_cast Int.toNat_natCast _
  rw [expIter_iterate_expSeed, htoNat]
  exact ⟨rfl, rfl, by simp [expAfter]⟩

/-- The bound of log 21 is enough for a 64-bit exponent: the loop stops by EE = 0, with the whole exponent in the
accumulator. -/
theorem expRun_ends (b m : Int) {n : Nat} (hn : (n : Int) ≤ Config.int64Max) :
    (expRun b n m).ee = 0 ∧ (expRun b n m).eacc = b ^ n % m := by
  obtain ⟨k, hrun, hee⟩ := expLoop_iterate m expTurns (expSeed b n m) (by simp only [expSeed, divFloor]; omega)
    (by simp only [expSeed, divFloor, expTurns, Config.int64Max] at hn ⊢; omega)
  rw [expIter_iterate_expSeed] at hrun
  refine ⟨hee, ?_⟩
  have hshift : n / 2 ^ (k + 1) = 0 := Int.natCast_eq_zero.mp ((congrArg ExpWork.ee hrun).symm.trans hee)
  have hlow : n % 2 ^ (k + 1) = n := Nat.mod_eq_of_lt ((Nat.div_eq_zero_iff_lt (by positivity)).mp hshift)
  rw [expRun, hrun, expAfter, hlow]

theorem modexpRef_eq_pow (b m : Int) {e : Int} (h0 : 0 ≤ e) (h1 : e ≤ Config.int64Max) :
    modexpRef b e m = b ^ e.toNat % m := by
  lift e to Nat using h0
  unfold modexpRef
  split
  · obtain rfl : e = 0 := by omega
    simp [modFloor]
  · exact (expRun_ends b m h1).2

/-- Settles O53: the loop ends in time by `expRun_ends`, and then holds the power. -/
theorem modexpRefIsThePower : Obligations.ModexpRefIsThePower := by
  intro b e m _ h0 h1
  refine ⟨fun _ => ?_, modexpRef_eq_pow b m h0 h1⟩
  lift e to Nat using h0
  exact (expRun_ends b m h1).1

/-! ## MODEXP and MODMUL (R62, R64) -/

/-- Settles O24: by `execModexp_ends`, whose four ends exclude each other, and `modexpRef_eq_pow` for the result. -/
theorem modexpComputesThePower : Obligations.ModexpComputesThePower := by
  refine ⟨rfl, fun s => ?_⟩
  obtain ⟨t, ht, hend⟩ := execModexp_ends s
  have hpow := modexpRef_eq_pow (opA s) (opC s) (e := opB s) (h1 := sval_le_int64Max _)
  simp only [opA, opB, opC, sval, Config.maxMod] at hend hpow
  rcases hend with ⟨hc, hf⟩ | ⟨hc, hb, hf⟩ | ⟨hc, hb, hm, hf⟩ | ⟨hc, hb, hm, hs⟩
  · exact ⟨fun _ => ⟨t, ht, hf⟩, by omega, by omega, by omega⟩
  · exact ⟨by omega, fun _ _ => ⟨t, ht, hf⟩, by omega, by omega⟩
  · exact ⟨by omega, by omega, fun _ _ _ => ⟨t, ht, hf⟩, by omega⟩
  · exact ⟨by omega, by omega, by omega, fun _ _ _ => ⟨t, ht, hpow hb ▸ hs⟩⟩

/-- Settles O26: by `execModmul_ends`, whose three ends exclude each other; reducing the factors first changes no
product. -/
theorem modmulMultipliesAndReduces : Obligations.ModmulMultipliesAndReduces := by
  refine ⟨rfl, fun s => ?_⟩
  obtain ⟨t, ht, hend⟩ := execModmul_ends s
  simp only [mulmod_modFloor, opA, opB, opC, sval, Config.maxMod] at hend
  rcases hend with ⟨hc, hf⟩ | ⟨hc, hm, hf⟩ | ⟨hc, hm, hs⟩
  · exact ⟨fun _ => ⟨t, ht, hf⟩, by omega, by omega⟩
  · exact ⟨by omega, fun _ => ⟨t, ht, hf⟩, by omega⟩
  · exact ⟨by omega, by omega, fun _ _ => ⟨t, ht, hs⟩⟩

/-! ## Repeated multiplication (R65) -/

theorem iterate_mul_mod (b m : Int) (n : Nat) : (fun x => x * (b % m) % m)^[n] (1 % m) = b ^ n % m := by
  induction n with
  | zero => rw [Function.iterate_zero_apply, pow_zero]
  | succ n ih => rw [Function.iterate_succ_apply', ih, pow_succ, ← Int.mul_emod]

/-- A result in the range of R26 is read back from RESULT. -/
theorem SucceedsWith.result_toInt {r : Int} {s t : State} (h : SucceedsWith r s t) (h0 : 0 ≤ r)
    (h1 : r ≤ Config.int64Max) : t.result.toInt = r := by
  obtain ⟨u, n, rfl⟩ := h
  exact sval_pattern64 ((by decide : Config.int64Min ≤ 0).trans h0) h1

/-- Settles O25: RESULT is the power of O24, which `iterate_mul_mod` reaches by repeated multiplication. -/
theorem modexpMatchesRepeatedMultiplication : Obligations.ModexpMatchesRepeatedMultiplication := by
  intro s hc hm hb
  obtain ⟨-, hends⟩ := modexpComputesThePower
  obtain ⟨-, -, -, haccepted⟩ := hends s
  obtain ⟨t, ht, hs⟩ := haccepted hc hb hm
  obtain ⟨h0, h1⟩ := modFloor_range (s.latched.a.toInt ^ s.latched.b.toInt.toNat) hc
  have hres := hs.result_toInt h0 (h1.le.trans (sval_le_int64Max s.latched.c))
  refine ⟨t, ht, ?_, hres ▸ h0, hres ▸ h1, fun ha hb hc => ?_⟩
  · rw [iterate_mul_mod, hres]
  · rw [← BitVec.toInt_inj, hres, ha, hb, hc]
    decide

end Sys2Proof.Machine
end

section
/-! PROOFS. The inversion unit runs the extended Euclidean algorithm: its loop ends in time, at the gcd, and its
registers never overflow (spec/41_modinv.md R67); MODINV completes with the inverse (R66, R68). -/

namespace Sys2Proof.Machine

/-! ## One turn (R67) -/

@[simp] theorem invSeed_ir1 (a m : Int) : (invSeed a m).ir1 = m := rfl
@[simp] theorem invIter_ir0 (w : InvWork) : (invIter w).ir0 = w.ir1 := rfl
@[simp] theorem invIter_is0 (w : InvWork) : (invIter w).is0 = w.is1 := rfl
theorem invIter_is1 (w : InvWork) : (invIter w).is1 = w.is0 - w.ir0 / w.ir1 * w.is1 := rfl

/-- Two numbers of opposite sign, as the coefficients IS0 and IS1 always are (0 counts as either). -/
def OppositeSigns (x y : Int) : Prop := (0 ≤ x ∧ y ≤ 0) ∨ (x ≤ 0 ∧ 0 ≤ y)

/-- A turn keeps the alternation of signs, so the sizes of the coefficients add up and nothing cancels. -/
theorem OppositeSigns.sub_mul {x y q : Int} (h : OppositeSigns x y) (hq : 0 ≤ q) :
    OppositeSigns y (x - q * y) ∧ |x - q * y| = |x| + q * |y| := by
  rcases h with ⟨hx, hy⟩ | ⟨hx, hy⟩
  · have hqy : q * y ≤ 0 := mul_nonpos_of_nonneg_of_nonpos hq hy
    refine ⟨.inr ⟨hy, by omega⟩, ?_⟩
    rw [abs_of_nonneg hx, abs_of_nonpos hy, abs_of_nonneg (by omega)]
    ring
  · have hqy : 0 ≤ q * y := mul_nonneg hq hy
    refine ⟨.inl ⟨hy, by omega⟩, ?_⟩
    rw [abs_of_nonpos hx, abs_of_nonneg hy, abs_of_nonpos (by omega)]
    ring

/-- What every turn keeps, for the reduced operand `a % m` (R67). `balance` is the determinant of the two rows, up to
sign; it is what bounds the coefficients. -/
structure EuclidInvariant (a m : Int) (w : InvWork) : Prop where
  ir0_modEq : w.ir0 ≡ w.is0 * (a % m) [ZMOD m]
  ir1_modEq : w.ir1 ≡ w.is1 * (a % m) [ZMOD m]
  gcd_eq : Int.gcd w.ir0 w.ir1 = Int.gcd (a % m) m
  ir0_range : 0 ≤ w.ir0 ∧ w.ir0 ≤ m
  ir1_range : 0 ≤ w.ir1 ∧ w.ir1 ≤ m
  signs : OppositeSigns w.is0 w.is1
  balance : |w.is1| * w.ir0 + |w.is0| * w.ir1 = m
  is0_range : |w.is0| ≤ m
  is1_range : |w.is1| ≤ m

theorem euclidInvariant_invSeed (a : Int) {m : Int} (hm : 1 ≤ m) : EuclidInvariant a m (invSeed a m) := by
  obtain ⟨h0, h1⟩ := modFloor_range a hm
  exact {
    ir0_modEq := by rw [invSeed, one_mul]; rfl
    ir1_modEq := by rw [invSeed, zero_mul]; exact Int.emod_self
    gcd_eq := rfl
    ir0_range := ⟨h0, h1.le⟩
    ir1_range := by rw [invSeed_ir1]; omega
    signs := .inl ⟨zero_le_one, le_rfl⟩
    balance := by simp [invSeed]
    is0_range := by simpa [invSeed] using hm
    is1_range := by simp only [invSeed, abs_zero]; omega }

/-- The new IR0 is at least 1, so the kept balance bounds the new IS1. -/
theorem euclidInvariant_invIter {a m : Int} {w : InvWork} (hne : w.ir1 ≠ 0) (h : EuclidInvariant a m w) :
    EuclidInvariant a m (invIter w) := by
  obtain ⟨hr0, -⟩ := h.ir0_range
  obtain ⟨hr1, hr1m⟩ := h.ir1_range
  have hpos : 0 < w.ir1 := by omega
  have hmod0 : 0 ≤ w.ir0 % w.ir1 := Int.emod_nonneg _ hne
  have hmod1 : w.ir0 % w.ir1 < w.ir1 := Int.emod_lt_of_pos _ hpos
  obtain ⟨hsigns, hgrow⟩ := h.signs.sub_mul (Int.ediv_nonneg hr0 hr1)
  have hbalance : |(invIter w).is1| * w.ir1 + |w.is1| * (w.ir0 % w.ir1) = m := by
    rw [invIter_is1, hgrow, Int.emod_def]
    linear_combination h.balance
  have hlast : |(invIter w).is1| ≤ m :=
    calc |(invIter w).is1| ≤ |(invIter w).is1| * w.ir1 := le_mul_of_one_le_right (abs_nonneg _) hpos
      _ ≤ m := by linarith [mul_nonneg (abs_nonneg w.is1) hmod0]
  exact {
    ir0_modEq := h.ir1_modEq
    ir1_modEq := by
      rw [invIter_is1, sub_mul, mul_assoc]
      exact h.ir0_modEq.sub (h.ir1_modEq.mul_left _)
    gcd_eq := by rw [invIter_ir0, invIter_ir1, Int.gcd_comm, Int.gcd_emod, h.gcd_eq]
    ir0_range := h.ir1_range
    ir1_range := by rw [invIter_ir1]; omega
    signs := hsigns
    balance := by rw [invIter_ir1]; exact hbalance
    is0_range := h.is1_range
    is1_range := hlast }

theorem euclidInvariant_invLoop (a : Int) {m : Int} (hm : 1 ≤ m) (n : Nat) :
    EuclidInvariant a m (invLoop n (invSeed a m)) :=
  invLoop_keeps (EuclidInvariant a m) (fun _ => euclidInvariant_invIter) n _ (euclidInvariant_invSeed a hm)

theorem euclidInvariant_invRun (a : Int) {m : Int} (hm : 1 ≤ m) : EuclidInvariant a m (invRun a m) :=
  euclidInvariant_invLoop a hm invTurns

/-- Settles O55: the invariant, with each register inside the signed 64-bit range. -/
theorem euclidRegistersAreExact : Obligations.EuclidRegistersAreExact := by
  rintro a m n w hm hmax rfl
  have h := euclidInvariant_invLoop a hm n
  obtain ⟨hr0, hr0m⟩ := h.ir0_range
  obtain ⟨hr1, hr1m⟩ := h.ir1_range
  obtain ⟨hs0, hs0m⟩ := abs_le.mp h.is0_range
  obtain ⟨hs1, hs1m⟩ := abs_le.mp h.is1_range
  have hexact {r : Int} (h0 : -m ≤ r) (h1 : r ≤ m) : sval (pattern64 r) = r :=
    sval_pattern64 (by simp only [Config.int64Min, Config.int64Max] at hmax ⊢; omega) (h1.trans hmax)
  exact ⟨h.ir0_modEq, h.ir1_modEq, hr0, hr0m, hr1, hr1m, hs0, hs0m, hs1, hs1m,
    hexact (by omega) hr0m, hexact (by omega) hr1m, hexact hs0 hs0m, hexact hs1 hs1m⟩

/-! ## The end of the loop (R67, log 21) -/

/-- Two turns at least halve IR1. -/
theorem two_mul_emod_emod_lt {x b : Int} (hb : 0 < b) (hr : x % b ≠ 0) : 2 * (b % (x % b)) < b := by
  have hr0 : 0 < x % b := lt_of_le_of_ne (Int.emod_nonneg _ hb.ne') hr.symm
  have hrb : x % b ≤ b := (Int.emod_lt_of_pos _ hb).le
  have hlt : b % (x % b) < x % b := Int.emod_lt_of_pos _ hr0
  have hq : 1 ≤ b / (x % b) := Int.le_ediv_of_mul_le hr0 (by omega)
  linarith [le_mul_of_one_le_right hr0.le hq, Int.mul_ediv_add_emod b (x % b)]

theorem invLoop_of_ir1_eq_zero (n : Nat) {w : InvWork} (h : w.ir1 = 0) : invLoop n w = w := by
  cases n with
  | zero => rfl
  | succ n => rw [invLoop, if_pos h]

theorem invLoop_of_ir1_ne_zero (n : Nat) {w : InvWork} (h : w.ir1 ≠ 0) :
    invLoop (n + 1) w = invLoop n (invIter w) := by rw [invLoop, if_neg h]

/-- Two turns for every bit of IR1 are enough. -/
theorem invLoop_ends : ∀ (k : Nat) (w : InvWork), 0 ≤ w.ir1 → w.ir1 < 2 ^ k → (invLoop (2 * k) w).ir1 = 0
  | 0, w, h0, h1 => by
    rw [pow_zero] at h1
    exact (by omega : w.ir1 = 0)
  | k + 1, w, h0, h1 => by
    rw [pow_succ] at h1
    by_cases hw : w.ir1 = 0
    · rw [invLoop_of_ir1_eq_zero _ hw, hw]
    rw [mul_add_one, invLoop_of_ir1_ne_zero _ hw]
    by_cases hr : (invIter w).ir1 = 0
    · rw [invLoop_of_ir1_eq_zero _ hr, hr]
    rw [invLoop_of_ir1_ne_zero _ hr]
    have hhalf : 2 * (invIter (invIter w)).ir1 < w.ir1 := by
      rw [invIter_ir1, invIter_ir0, invIter_ir1]
      exact two_mul_emod_emod_lt (by omega) (invIter_ir1 w ▸ hr)
    refine invLoop_ends k _ ?_ (by omega)
    rw [invIter_ir1]
    exact Int.emod_nonneg _ hr

/-- Settles O54: the loop ends by `invLoop_ends`, and then the kept gcd is IR0. -/
theorem euclidLoopEndsAtTheGcd : Obligations.EuclidLoopEndsAtTheGcd := by
  intro a m hm hmax
  have hend : (invRun a m).ir1 = 0 := by
    refine invLoop_ends 65 _ (by rw [invSeed_ir1]; omega) ?_
    rw [invSeed_ir1]
    exact hmax.trans_lt (by decide)
  have h := euclidInvariant_invRun a hm
  have hgcd : (invRun a m).ir0.natAbs = Int.gcd (a % m) m := by
    rw [← h.gcd_eq, hend, Int.gcd_zero_right]
  obtain ⟨hr0, -⟩ := h.ir0_range
  exact ⟨hend, by rw [← hgcd, Int.natAbs_of_nonneg hr0]⟩

/-! ## MODINV (R66, R68) -/

/-- R67's NOT_INVERTIBLE is R66's. -/
theorem modinvRef_eq_none_iff (a : Int) {m : Int} (hm : 1 ≤ m) (hmax : m ≤ Config.int64Max) :
    modinvRef a m = none ↔ Int.gcd (a % m) m ≠ 1 := by
  obtain ⟨-, hgcd⟩ := euclidLoopEndsAtTheGcd a m hm hmax
  rw [modinvRef, hgcd, ite_eq_right_iff]
  simp

/-- R67: at exit IR0 = 1, so IS0 inverts the reduced operand. -/
theorem modinvRef_mul_modEq_one {a m y : Int} (hm : 1 ≤ m) (hy : modinvRef a m = some y) :
    a % m * y ≡ 1 [ZMOD m] := by
  have hbezout := (euclidInvariant_invRun a hm).ir0_modEq
  unfold modinvRef at hy
  split at hy
  next h1 =>
    obtain rfl := Option.some.inj hy
    calc a % m * ((invRun a m).is0 % m) ≡ a % m * (invRun a m).is0 [ZMOD m] := (Int.mod_modEq _ _).mul_left _
      _ = (invRun a m).is0 * (a % m) := mul_comm _ _
      _ ≡ 1 [ZMOD m] := h1 ▸ hbezout.symm
  next => cases hy

/-- A number has at most one inverse in [0, m). -/
theorem eq_of_mul_modEq_one {a m y z : Int} (hy : 0 ≤ y ∧ y < m) (hz : 0 ≤ z ∧ z < m) (hay : a * y ≡ 1 [ZMOD m])
    (haz : a * z ≡ 1 [ZMOD m]) : z = y := by
  have hzy : z ≡ y [ZMOD m] :=
    calc z = z * 1 := (mul_one z).symm
      _ ≡ z * (a * y) [ZMOD m] := hay.symm.mul_left z
      _ = a * z * y := by ring
      _ ≡ 1 * y [ZMOD m] := haz.mul_right y
      _ = y := one_mul y
  rwa [Int.ModEq, Int.emod_eq_of_lt hz.1 hz.2, Int.emod_eq_of_lt hy.1 hy.2] at hzy

/-- Settles O27: by `execModinv_ends`, whose three ends exclude each other, and the reference algorithm's result. -/
theorem modinvFindsTheInverse : Obligations.ModinvFindsTheInverse := by
  refine ⟨rfl, fun s => ?_⟩
  obtain ⟨t, ht, hend⟩ := execModinv_ends s
  have hmax : s.latched.c.toInt ≤ Config.int64Max := sval_le_int64Max _
  have hnone := modinvRef_eq_none_iff s.latched.a.toInt (hmax := hmax)
  simp only [opA, opC, sval] at hend
  rcases hend with ⟨hc, hf⟩ | ⟨hc, hy, hf⟩ | ⟨hc, y, hy, hs⟩
  · exact ⟨fun _ => ⟨t, ht, hf⟩, by omega, by omega⟩
  · exact ⟨by omega, fun _ _ => ⟨t, ht, hf⟩, fun _ hgcd => absurd hgcd ((hnone hc).mp hy)⟩
  · obtain ⟨hy0, hym⟩ := modinvRef_range hc hy
    have hinv := modinvRef_mul_modEq_one hc hy
    refine ⟨by omega, fun _ hgcd => ?_, fun _ _ => ⟨y, t, ht, hs, hy0, hym, fun z hz0 hzm => ⟨?_, ?_⟩⟩⟩
    · cases hy.symm.trans ((hnone hc).mpr hgcd)
    · exact eq_of_mul_modEq_one ⟨hy0, hym⟩ ⟨hz0, hzm⟩ hinv
    · rintro rfl
      exact hinv

/-- Settles O28: only a success has ERR = 0, and its RESULT is the inverse of the reduced operand. -/
theorem modinvResultIsAnInverse : Obligations.ModinvResultIsAnInverse := by
  intro s t h herr
  obtain ⟨u, hu, hend⟩ := execModinv_ends s
  cases hu.symm.trans h
  rcases hend with ⟨-, _, _, rfl⟩ | ⟨-, -, _, _, rfl⟩ | ⟨hc, y, hy, hs⟩
  · cases herr
  · cases herr
  · obtain ⟨h0, h1⟩ := modinvRef_range hc hy
    have hres := hs.result_toInt h0 (h1.le.trans (sval_le_int64Max s.latched.c))
    have hred : s.latched.a.toInt * y ≡ opA s % opC s * y [ZMOD opC s] := (Int.mod_modEq _ _).symm.mul_right _
    exact hres.symm ▸ ⟨hred.trans (modinvRef_mul_modEq_one hc hy), h0, h1⟩

end Sys2Proof.Machine
end

section
/-! PROOFS. MODRED and the reduction unit: any estimate of the quotient that is at most K too small is corrected to
`mod_floor(a, m)` by at most K subtractions (spec/42_modred.md R69, R70). -/

namespace Sys2Proof.Machine

/-! ## The subtract phase (R70) -/

/-- The phase ends at the remainder when it may subtract as often as m goes into the partial remainder. -/
theorem redCorrect_eq_emod {m : Int} (hm : 1 ≤ m) :
    ∀ (k : Nat) {rr : Int}, 0 ≤ rr → rr / m ≤ k → redCorrect m k rr = rr % m
  | 0, rr, h0, hk => by
    have hlt : rr < m := by simpa using Int.lt_mul_of_ediv_lt hm (Int.lt_add_one_of_le hk)
    exact (Int.emod_eq_of_lt h0 hlt).symm
  | k + 1, rr, h0, hk => by
    rw [redCorrect]
    split
    next hle =>
      have hdiv : (rr - m) / m = rr / m - 1 := by simpa using Int.sub_mul_ediv_right rr 1 (c := m) (by omega)
      rw [redCorrect_eq_emod hm k (Int.sub_nonneg_of_le hle) (by omega), Int.sub_emod_right]
    next hlt => exact (Int.emod_eq_of_lt h0 (not_le.mp hlt)).symm

/-- The quotient left over after an estimate is what the estimate was too small by. -/
theorem redFromEstimate_eq_emod {a m rq : Int} {k : Nat} (hm : 1 ≤ m) (hlow : rq ≤ a / m) (hhigh : a / m ≤ rq + k) :
    redFromEstimate k rq a m = a % m := by
  have hquot : (a - rq * m) / m = a / m - rq := Int.sub_mul_ediv_right _ _ (by omega)
  have hnonneg : 0 ≤ a - rq * m := sub_nonneg.mpr ((Int.le_ediv_iff_mul_le hm).mp hlow)
  rw [redFromEstimate, redCorrect_eq_emod hm k hnonneg (by omega), Int.sub_mul_emod_self_right]

/-- The model's estimate lies within the bound, whatever the free value is (log 9). -/
theorem redEstimate_bounds (n : Nat) (a m : Int) :
    redEstimate n a m ≤ a / m ∧ a / m ≤ redEstimate n a m + Config.reductionSlack := by
  have hslack : (Config.freeWord n).toNat % (Config.reductionSlack + 1) < Config.reductionSlack + 1 :=
    Nat.mod_lt _ (Nat.succ_pos _)
  simp only [redEstimate, divFloor]
  omega

/-- Settles O56: by induction on the number of subtractions left, with the model's estimate within its bound. -/
theorem reductionFromAnyEstimate : Obligations.ReductionFromAnyEstimate :=
  ⟨fun _ _ _ _ hm hlow hhigh => redFromEstimate_eq_emod hm hlow hhigh, fun n a m _ => redEstimate_bounds n a m⟩

/-! ## MODRED (R69) -/

/-- Settles O29: by `execModred_ends`, whose two ends exclude each other; the remainder has the properties of R8. -/
theorem modredTakesTheFlooredRemainder : Obligations.ModredTakesTheFlooredRemainder := by
  refine ⟨rfl, fun s => ?_⟩
  obtain ⟨t, ht, hend⟩ := execModred_ends s
  simp only [opA, opC, sval] at hend
  rcases hend with ⟨hc, hf⟩ | ⟨hc, hs⟩
  · exact ⟨fun _ => ⟨t, ht, hf⟩, by omega⟩
  · obtain ⟨h0, hlt⟩ := modFloor_range s.latched.a.toInt hc
    exact ⟨by omega, fun _ => ⟨_, t, ht, hs, h0, hlt, Int.dvd_self_sub_emod⟩⟩

end Sys2Proof.Machine
end

section
/-! PROOFS. CRT_DECRYPT recombines its two half exponentiations, by the source's formula too (spec/43_crt.md R71, R72),
and its result is the direct power for distinct primes outside one corner (R74). -/

namespace Sys2Proof.Machine

/-! ## The recombined value (R72) -/

/-- A number in mixed radix, low digit `a` in [0, p): reducing it by `p * q` reduces its high digit by `q`. -/
theorem add_mul_emod_mul {a p : Int} (q k : Int) (h0 : 0 ≤ a) (h1 : a < p) :
    (a + p * k) % (p * q) = a + p * (k % q) := by
  have hp : 0 < p := h0.trans_lt h1
  have hquot : (a + p * k) / (p * q) = k / q := by
    rw [← Int.ediv_ediv_of_nonneg hp.le, Int.add_mul_ediv_left _ _ hp.ne', Int.ediv_eq_zero_of_lt h0 h1, zero_add]
  rw [Int.emod_def, hquot, Int.emod_def]
  ring

/-- Reducing the difference first, which keeps CORE's product small, changes no h. -/
theorem crtH_modEq (a1 a2 invp q : Int) : crtH a1 a2 invp q ≡ (a2 - a1) * invp [ZMOD q] :=
  (Int.mod_modEq _ _).trans ((Int.mod_modEq _ _).mul_right invp)

/-- R72: any h' congruent to h gives CORE's value in the source's formula. -/
theorem sourceFormula_eq_crtRecombine {a1 a2 invp p q h' : Int} (h0 : 0 ≤ a1) (h1 : a1 < p)
    (hh : h' ≡ (a2 - a1) * invp [ZMOD q]) : (a1 + p * (h' + q)) % (p * q) = crtRecombine a1 a2 invp p q := by
  have hmod : h' % q = crtH a1 a2 invp q :=
    calc h' % q = crtH a1 a2 invp q % q := hh.trans (crtH_modEq a1 a2 invp q).symm
      _ = crtH a1 a2 invp q := Int.emod_emod _ _
  rw [add_mul_emod_mul q _ h0 h1, Int.add_emod_right, hmod, crtRecombine]

/-- Settles O31: both remainders are congruent to h modulo q, and a floored remainder by n lies in [0, n). -/
theorem crtAgreesWithTheSourceFormula : Obligations.CrtAgreesWithTheSourceFormula := by
  intro a1 a2 invp p q hp hq h0 h1
  have hn : 0 < p * q := by positivity
  have hfloored := sourceFormula_eq_crtRecombine (q := q) h0 h1 (Int.mod_modEq ((a2 - a1) * invp) q)
  have htmod : ((a2 - a1) * invp).tmod q ≡ (a2 - a1) * invp [ZMOD q] := Int.modEq_iff_dvd.mpr Int.dvd_self_sub_tmod
  exact ⟨hfloored, sourceFormula_eq_crtRecombine h0 h1 htmod,
    hfloored ▸ Int.emod_nonneg _ hn.ne', hfloored ▸ Int.emod_lt_of_pos _ hn⟩

/-! ## CRT_DECRYPT (R71) -/

theorem crtHalf_eq_pow (c d : Int) {r : Int} (h1 : 1 < r) (hmax : r ≤ Config.maxMod) :
    crtHalf c d r = c ^ (d % (r - 1)).toNat % r := by
  obtain ⟨he0, he1⟩ : 0 ≤ d % (r - 1) ∧ d % (r - 1) < r - 1 := modFloor_range d (by omega)
  have hmaxMod : Config.maxMod ≤ Config.int64Max := by decide
  have he : d % (r - 1) ≤ Config.int64Max := by omega
  exact modexpRef_eq_pow c r he0 he

theorem crtHalf_modEq (c d : Int) {r : Int} (h1 : 1 < r) (hmax : r ≤ Config.maxMod) :
    crtHalf c d r ≡ c ^ (d % (r - 1)).toNat [ZMOD r] := by
  rw [crtHalf_eq_pow c d h1 hmax]
  exact Int.mod_modEq _ _

/-- Settles O30: by `crtDecrypt_ends`, whose seven ends exclude each other; the half exponentiations are powers and the
inversion unit's result is the one inverse. -/
theorem crtDecryptRecombines : Obligations.CrtDecryptRecombines := by
  refine ⟨rfl, ?_⟩
  rintro s c d p q rfl rfl rfl rfl
  have hend := crtDecrypt_ends (opA s) (opB s) (opC s) (opD s) s
  have hnone := modinvRef_eq_none_iff s.latched.c.toInt (hmax := sval_le_int64Max s.latched.d)
  have hhalf := @crtHalf_eq_pow s.latched.a.toInt s.latched.b.toInt
  simp only [CrtInRange, opA, opB, opC, opD, sval, Config.maxMod, Config.int64Max] at hend hnone hhalf
  rcases hend with
    ⟨hm, hf⟩ | ⟨hp, hq, hd, hf⟩ | ⟨hp, hq, hd, hm, hf⟩ | ⟨hp, hq, hd, hpm, hqm, hn, hf⟩ |
    ⟨hp, hq, hd, hpm, hqm, hn, hc, hf⟩ | ⟨⟨hp, hq, hd, hpm, hqm, hn, hc0, hcn⟩, hy, hf⟩ |
    ⟨⟨hp, hq, hd, hpm, hqm, hn, hc0, hcn⟩, y, hy, hs, hu⟩
  · exact ⟨fun _ => ⟨_, rfl, hf⟩, by omega, by omega, by omega⟩
  · exact ⟨by omega, fun _ _ _ => ⟨_, rfl, hf⟩, by omega, by omega⟩
  · exact ⟨by omega, by omega, fun _ _ _ _ => ⟨_, rfl, hf⟩, by omega⟩
  · exact ⟨by omega, by omega, by omega, fun _ _ _ _ _ => ⟨fun _ => ⟨_, rfl, hf⟩, by omega⟩⟩
  · exact ⟨by omega, by omega, by omega, fun _ _ _ _ _ => ⟨by omega, fun _ => ⟨fun _ => ⟨_, rfl, hf⟩, by omega⟩⟩⟩
  · exact ⟨by omega, by omega, by omega, fun _ _ _ _ _ => ⟨by omega, fun _ => ⟨by omega, fun _ _ =>
      ⟨fun _ => ⟨_, rfl, hf⟩, fun hgcd => absurd hgcd ((hnone (by omega)).mp hy)⟩⟩⟩⟩
  · refine ⟨by omega, by omega, by omega, fun _ _ _ _ _ => ⟨by omega, fun _ => ⟨by omega, fun _ _ =>
      ⟨fun hgcd => ?_, fun _ => ?_⟩⟩⟩⟩
    · cases hy.symm.trans ((hnone (by omega)).mpr hgcd)
    obtain ⟨hy0, hyq⟩ := modinvRef_range (by omega) hy
    have hinv := modinvRef_mul_modEq_one (by omega) hy
    obtain ⟨hr0, hrn⟩ := crtResult_range s.latched.a.toInt s.latched.b.toInt y hp.le hq.le
    have hcrt := congrArg Units.crt hu
    simp only [crtResult, crtRecombine, crtUnits, hhalf hp hpm, hhalf hq hqm] at hs hr0 hrn hcrt
    refine ⟨y, _, _, _, _, rfl, hs, hy0, hyq, fun z hz0 hzq => ⟨?_, ?_⟩, rfl, rfl, rfl, hr0, hrn, hcrt⟩
    · exact eq_of_mul_modEq_one ⟨hy0, hyq⟩ ⟨hz0, hzq⟩ hinv
    · rintro rfl
      exact hinv

/-! ## The two halves of the result (R74) -/

theorem crtRecombine_modEq_left (a1 a2 invp p q : Int) : crtRecombine a1 a2 invp p q ≡ a1 [ZMOD p] :=
  Int.add_mul_emod_self_left _ _ _

/-- Since invP inverts p modulo q, `p * h` is the difference of the halves there. -/
theorem crtRecombine_modEq_right (a1 a2 : Int) {invp p q : Int} (hinv : p % q * invp ≡ 1 [ZMOD q]) :
    crtRecombine a1 a2 invp p q ≡ a2 [ZMOD q] := by
  have hp : p * invp ≡ 1 [ZMOD q] := ((Int.mod_modEq p q).symm.mul_right invp).trans hinv
  calc a1 + p * crtH a1 a2 invp q ≡ a1 + p * ((a2 - a1) * invp) [ZMOD q] :=
        ((crtH_modEq a1 a2 invp q).mul_left p).add_left a1
    _ = a1 + (a2 - a1) * (p * invp) := by ring
    _ ≡ a1 + (a2 - a1) * 1 [ZMOD q] := (hp.mul_left _).add_left a1
    _ = a2 := by ring

theorem FailsWith.err_eq {e : Cause} {s t : State} (h : FailsWith e s t) : t.status.err = causeClass e := by
  obtain ⟨u, n, rfl⟩ := h
  rfl

theorem SucceedsWith.err_eq {r : Int} {s t : State} (h : SucceedsWith r s t) : t.status.err = .noError := by
  obtain ⟨u, n, rfl⟩ := h
  rfl

/-- Only a success has ERR = 0. -/
theorem crtDecrypt_of_noError {c d p q : Int} {s : State} (h : (crtDecrypt c d p q s).status.err = .noError) :
    CrtInRange c d p q ∧ ∃ y, modinvRef p q = some y ∧ SucceedsWith (crtResult c d p q y) s (crtDecrypt c d p q s) := by
  have hfails {e : Cause} (he : causeClass e ≠ .noError) : ¬ FailsWith e s (crtDecrypt c d p q s) :=
    fun hf => he (hf.err_eq.symm.trans h)
  rcases crtDecrypt_ends c d p q s with
    ⟨-, hf⟩ | ⟨-, -, -, hf⟩ | ⟨-, -, -, -, hf⟩ | ⟨-, -, -, -, -, -, hf⟩ | ⟨-, -, -, -, -, -, -, hf⟩ | ⟨-, -, hf⟩ |
    ⟨hr, y, hy, hs, -⟩
  on_goal 7 => exact ⟨hr, y, hy, hs⟩
  all_goals exact absurd hf (hfails (by decide))

/-- Settles O32: RESULT is the recombined value, which is congruent to each half. -/
theorem crtResultHasTheTwoHalves : Obligations.CrtResultHasTheTwoHalves := by
  intro s t h herr
  cases h
  obtain ⟨⟨hp, hq, -, hpm, hqm, hn, -⟩, y, hy, hs⟩ := crtDecrypt_of_noError herr
  obtain ⟨hr0, hrn⟩ := crtResult_range (opA s) (opB s) y hp.le hq.le
  have hres := hs.result_toInt hr0 (hrn.le.trans hn)
  rw [hres]
  exact ⟨(crtRecombine_modEq_left _ _ _ _ _).trans (crtHalf_modEq _ _ hp hpm),
    (crtRecombine_modEq_right _ _ (modinvRef_mul_modEq_one hq.le hy)).trans (crtHalf_modEq _ _ hq hqm)⟩

/-! ## The direct power (R74) -/

/-- Fermat's little theorem in the form of R74: outside the corner, the exponent may be reduced modulo r - 1. -/
theorem pow_mod_pred_modEq {r : Nat} (hr : r.Prime) (c : Int) (d : Nat)
    (h : c % r ≠ 0 ∨ d = 0 ∨ d % (r - 1) ≠ 0) : c ^ (d % (r - 1)) ≡ c ^ d [ZMOD r] := by
  by_cases hc : (r : Int) ∣ c
  · rcases h with h | rfl | hrest
    · exact absurd (Int.emod_eq_zero_of_dvd hc) h
    · rw [Nat.zero_mod]
    · have hd : d ≠ 0 := by
        rintro rfl
        exact hrest (Nat.zero_mod _)
      exact (Int.modEq_zero_iff_dvd.mpr (dvd_pow hc hrest)).trans (Int.modEq_zero_iff_dvd.mpr (dvd_pow hc hd)).symm
  · have hcop : IsCoprime c r := ((Nat.prime_iff_prime_int.mp hr).coprime_iff_not_dvd.mpr hc).symm
    calc c ^ (d % (r - 1)) = 1 ^ (d / (r - 1)) * c ^ (d % (r - 1)) := by rw [one_pow, one_mul]
      _ ≡ (c ^ (r - 1)) ^ (d / (r - 1)) * c ^ (d % (r - 1)) [ZMOD r] :=
        ((Int.ModEq.pow_card_sub_one_eq_one hr hcop).symm.pow _).mul_right _
      _ = c ^ d := by rw [← pow_mul, ← pow_add, Nat.div_add_mod]

/-- The same with the exponents as CORE reads them. -/
theorem pow_emod_pred_modEq {r : Nat} (hr : r.Prime) (c : Int) {d : Int} (hd : 0 ≤ d)
    (h : c % r ≠ 0 ∨ d = 0 ∨ d % (r - 1) ≠ 0) : c ^ (d % (r - 1)).toNat ≡ c ^ d.toNat [ZMOD r] := by
  lift d to Nat using hd
  have hexp : (d : Int) % (r - 1) = (d % (r - 1) : Nat) := by
    rw [Int.natCast_mod, Nat.cast_pred hr.pos]
  rw [hexp] at h ⊢
  rw [Int.toNat_natCast, Int.toNat_natCast]
  exact pow_mod_pred_modEq hr c d (by exact_mod_cast h)

/-- Settles O33: the command succeeds by O30; its result has the two halves of O32, which are those of the direct power,
and the Chinese remainder theorem leaves one such number in [0, n). -/
theorem crtEqualsTheDirectPower : Obligations.CrtEqualsTheDirectPower := by
  intro s p q hp hq hne hc hd hpm hqm hn hb ha han hcorner
  have hcop : Nat.Coprime p q := (Nat.coprime_primes hp hq).mpr hne
  have hgcd : Int.gcd ((p : Int) % q) q = 1 := by rwa [Int.gcd_emod, Int.gcd_natCast_natCast]
  have hn' : (p * q : Int) ≤ 9223372036854775807 := by exact_mod_cast hn
  obtain ⟨-, hends⟩ := crtDecryptRecombines
  obtain ⟨-, -, -, haccepted⟩ := hends s _ _ _ _ rfl rfl hc.symm hd.symm
  obtain ⟨-, hfits⟩ := haccepted (by exact_mod_cast hp.two_le) (by exact_mod_cast hq.two_le) hb
    (by exact_mod_cast hpm) (by exact_mod_cast hqm)
  obtain ⟨-, hinRange⟩ := hfits hn'
  obtain ⟨-, hcoprime⟩ := hinRange ha han
  obtain ⟨_, _, _, r, t, ht, hs, -, -, -, -, -, -, hr0, hrn, -⟩ := hcoprime hgcd
  obtain ⟨hleft, hright⟩ := crtResultHasTheTwoHalves s t ht hs.err_eq
  have hres := hs.result_toInt hr0 (hrn.le.trans hn')
  rw [hres, hc] at hleft
  rw [hres, hd] at hright
  have hpow : r ≡ s.latched.a.toInt ^ s.latched.b.toInt.toNat [ZMOD p * q] :=
    (Int.modEq_and_modEq_iff_modEq_mul (by simpa using hcop)).mp
      ⟨Int.ModEq.trans hleft (pow_emod_pred_modEq hp _ hb (hcorner p (.inl rfl))),
        Int.ModEq.trans hright (pow_emod_pred_modEq hq _ hb (hcorner q (.inr rfl)))⟩
  exact ⟨t, ht, by rwa [← hpow, Int.emod_eq_of_lt hr0 hrn]⟩

end Sys2Proof.Machine
end

section
/-! PROOFS. The core's turn (spec/60_exceptions.md R78 to R80): what it runs, what every command leaves in STATUS, that
the operand registers have no part in it, and that a command in flight gets its turn (R17). -/

namespace Sys2Proof.Machine

/-! ## The core's turn runs the latched command (R78, R91) -/

/-- An opcode byte with the reserved bits at 0 has itself as its field OP (R52). -/
theorem opField_setWidth (op : Op) : opField (op.setWidth 64) = op :=
  BitVec.eq_of_toNat_eq (by simp; omega)

theorem step_of_core {rest : List Event} {s : State} (hs : s.schedule = .core :: rest) :
    step s = coreTurn (setSchedule rest (beginCycle s)) := by
  simp [step, hs]

/-- Settles O22: the step is the core's turn, on a state with the same BUSY and the same L[OP]. -/
theorem coreStepRunsTheLatchedCommand : Obligations.CoreStepRunsTheLatchedCommand := by
  intro s rest hs
  rw [step_of_core hs]
  refine ⟨fun i hb hi => ?_, fun hb => ?_⟩
  · have hop : s.latched.op = opcode i := (opField_setWidth _).symm.trans (opField_of_decode hi)
    exact coreTurn_of_accepted i (s := setSchedule rest (beginCycle s)) hb hop
  · exact coreTurn_of_idle (s := setSchedule rest (beginCycle s)) hb

/-! ## What a completion writes and what it reads (R78 to R80, R97) -/

/-- STATUS after a completion: only CAUSE depends on how the command ended. -/
theorem exec_status {i : Instr} {s t : State} (h : exec i s = .next t) :
    t.status = ⟨false, true, s.status.overrun, causeClass t.status.cause, t.status.cause⟩ :=
  congrArg State.status (exec_eq h)

/-- Settles O34: a command always ends (`exec_ends`), and `exec_status` is the STATUS it ends with. -/
theorem everyCommandCompletes : Obligations.EveryCommandCompletes := by
  intro i s
  obtain ⟨t, ht, -⟩ := exec_ends i s
  refine ⟨t, ht, ?_⟩
  rw [exec_status ht]
  exact ⟨rfl, rfl, rfl, rfl⟩

/-- Settles O36: the operands are those of L, so each command takes the same branch, and no branch reads or writes the
operand registers. -/
theorem outcomeIgnoresOperandRegisters : Obligations.OutcomeIgnoresOperandRegisters := by
  intro i s a b c d
  have hA : opA (withOperands a b c d s) = opA s := rfl
  have hB : opB (withOperands a b c d s) = opB s := rfl
  have hC : opC (withOperands a b c d s) = opC s := rfl
  have hD : opD (withOperands a b c d s) = opD s := rfl
  cases i with
  | modexp =>
    simp only [exec, execModexp, hA, hB, hC]
    split_ifs <;> rfl
  | modmul =>
    simp only [exec, execModmul, hA, hB, hC]
    split_ifs <;> rfl
  | modinv =>
    simp only [exec, execModinv, hA, hC]
    split_ifs
    · rfl
    · cases modinvRef (opA s) (opC s) <;> rfl
  | modred =>
    simp only [exec, execModred, hA, hC]
    split_ifs <;> rfl
  | crtDecrypt =>
    simp only [exec, execCrtDecrypt, crtDecrypt, hA, hB, hC, hD]
    split_ifs
    any_goals rfl
    cases modinvRef (opC s) (opD s) <;> rfl

/-! ## A command in flight gets its turn (R17, R78, log 2) -/

/-- The steps that may come before the core's turn: each event may have to wait for one response. -/
def stepsBeforeTurn (s : State) : Nat := 2 * s.schedule.length + s.rspPending.toList.length

theorem stepsBeforeTurn_le (s : State) : stepsBeforeTurn s ≤ 2 * s.schedule.length + 1 := by
  have : s.rspPending.toList.length ≤ 1 := by cases s.rspPending <;> simp
  exact Nat.add_le_add_left this _

/-- With a legal opcode in L the core's turn answers a state, whatever BUSY is. -/
theorem coreTurn_answers {s : State} (h : legalInFlight s = true) : ∃ t, coreTurn s = .next t := by
  cases hb : s.status.busy with
  | false => exact ⟨s, coreTurn_of_idle hb⟩
  | true =>
    rcases decodeOp_cases s.latched.op with ⟨i, -, hop⟩ | hill
    · obtain ⟨t, ht, -⟩ := exec_ends i s
      exact ⟨t, (coreTurn_of_accepted i hb hop).trans ht⟩
    · simp [legalInFlight, inFlight, hill] at h

/-- A step stops the machine only for an illegal opcode in L or a narrow access (log 10, log 15). -/
theorem step_answers {s : State} (h : legalInFlight s = true) (hh : ∀ e ∈ s.schedule, harmless e = true) :
    ∃ t, step s = .next t := by
  cases hs : s.schedule with
  | nil =>
    cases hp : s.rspPending with
    | none =>
      obtain ⟨t, ht⟩ := coreTurn_answers (s := beginCycle s) h
      exact ⟨t, by simpa [step, hs, restTurn, reqReady, hp] using ht⟩
    | some r => exact ⟨deliver (beginCycle s), by simp [step, hs, restTurn, reqReady, hp]⟩
  | cons e rest =>
    have he : harmless e = true := hh e (by simp [hs])
    cases e with
    | request a =>
      cases hp : s.rspPending with
      | none => exact ⟨_, (step_of_request hs hp).trans (if_pos he)⟩
      | some r => exact ⟨_, step_of_held_request hs hp⟩
    | response => exact ⟨deliver (setSchedule rest (beginCycle s)), by simp [step, hs]⟩
    | core => exact step_of_core hs ▸ coreTurn_answers (s := setSchedule rest (beginCycle s)) h
    | reset => cases he

/-- While BUSY = 1 the core's turn completes the command, and any other step but a reset leaves it in flight. -/
theorem step_of_busy {s t : State} (hb : s.status.busy = true) (hr : resets s = false) (h : step s = .next t) :
    (coreMoves s = true → t.status.busy = false ∧ t.status.done = true)
      ∧ (coreMoves s = false → t.status.busy = true) := by
  cases stepKind_of_step h with
  | reset _ hr' => cases hr.symm.trans hr'
  | write r v _ _ hc =>
    refine ⟨fun hc' => by simp [hc] at hc', fun _ => ?_⟩
    cases r <;> simp [writeReg_status, issue_status, hb]
  | quiet _ _ _ _ hbc => exact ⟨fun hc => by simp [hb, hc] at hbc, fun _ => hb⟩
  | completes i _ _ _ hbc _ _ he =>
    have hst := exec_status he
    exact ⟨fun _ => ⟨congrArg Status.busy hst, congrArg Status.done hst⟩, fun hc => by simp [hc] at hbc⟩

/-- A step without the core's turn brings that turn nearer, and no event joins the schedule. -/
theorem step_approaches_turn {s t : State} (hc : coreMoves s = false) (h : step s = .next t) :
    stepsBeforeTurn t < stepsBeforeTurn s ∧ t.schedule ⊆ s.schedule := by
  rcases step_cases h with ⟨a, rest, hs, hp, htake⟩ | ⟨-, hp, rfl⟩ | ⟨rest, hs, rfl⟩ | ⟨rest, hs, -⟩ |
    ⟨hs, hp, -⟩ | ⟨rest, hs, rfl⟩
  · obtain ⟨hw, -⟩ := takeRequest_next htake
    rw [takeRequest_eq, if_pos hw] at htake
    cases htake
    simp [stepsBeforeTurn, takenState, hs, hp]
    omega
  · obtain ⟨r, hp⟩ := Option.ne_none_iff_exists'.mp hp
    simp [stepsBeforeTurn, hp]
  · simp [stepsBeforeTurn, hs]
    omega
  · simp [coreMoves, hs] at hc
  · simp [coreMoves, hs, hp] at hc
  · simp [stepsBeforeTurn, hs]
    omega

theorem resets_of_harmless {s : State} (hh : ∀ e ∈ s.schedule, harmless e = true) : resets s = false := by
  cases hr : resets s with
  | false => rfl
  | true =>
    obtain ⟨rest, hs⟩ := schedule_of_resets hr
    cases hh .reset (by simp [hs])

/-- A command in flight is completed by its turn, which comes after fewer than `n` steps. -/
theorem run_completes (n : Nat) {s : State} (hn : stepsBeforeTurn s < n) (hinv : Inv s) (hb : s.status.busy = true)
    (hh : ∀ e ∈ s.schedule, harmless e = true) :
    ∃ k t, k ≤ n ∧ Host.Core.run Sys2Proof.core k s = .next t ∧ t.status.busy = false ∧ t.status.done = true := by
  induction n generalizing s with
  | zero => exact absurd hn (Nat.not_lt_zero _)
  | succ n ih =>
    have ⟨_, hlatched, _⟩ := hinv
    obtain ⟨hlegal, -⟩ := hlatched hb
    obtain ⟨t, ht⟩ := step_answers hlegal hh
    obtain ⟨hturn, hwait⟩ := step_of_busy hb (resets_of_harmless hh) ht
    cases hc : coreMoves s with
    | true => exact ⟨1, t, by omega, run_succ_of_step ht 0, hturn hc⟩
    | false =>
      obtain ⟨hnear, hsub⟩ := step_approaches_turn hc ht
      obtain ⟨k, u, hk, hrun, hu⟩ :=
        ih (by omega) (stepKeepsTheInvariant s t hinv ht) (hwait hc) fun e he => hh e (hsub he)
      exact ⟨k + 1, u, by omega, (run_succ_of_step ht k).trans hrun, hu⟩

/-- Settles O50: at most two steps for each event, one for a response that waits already, and the turn itself. -/
theorem commandInFlightCompletes : Obligations.CommandInFlightCompletes := by
  intro s hinv hb hh
  exact run_completes _ (Nat.lt_succ_of_le (stepsBeforeTurn_le s)) hinv hb hh

end Sys2Proof.Machine
end

section
/-! PROOFS. The reset step (spec/70_reset_and_hazards.md R92). -/

namespace Sys2Proof.Machine

theorem step_of_reset {rest : List Event} {s : State} (hs : s.schedule = .reset :: rest) :
    step s = .next (resetCore (setSchedule rest (beginCycle s))) := by
  simp [step, hs]

@[simp] theorem cstate_resetCore (s : State) : cstate (resetCore s) = .idle :=
  (cstate_eq_idle_iff _).mpr rfl

@[simp] theorem irq_resetCore (s : State) : irq (resetCore s) = false := by
  simp [irq]

/-- ID is a constant: no state changes what it reads (R15). -/
theorem windowRead_id (s : State) : windowRead RegName.id.off s = ⟨0x434F524500000001#64, false⟩ :=
  windowRead_off .id s

/-- Settles O2: the step is `resetCore` with the rest of the schedule, and the fields are those `resetCore` leaves. -/
theorem resetStepClearsTheBlock : Obligations.ResetStepClearsTheBlock := by
  rw [Obligations.ResetStepClearsTheBlock, offset_id]
  intro s rest hs
  exact ⟨_, step_of_reset hs, resetCore_cmdOp _, resetCore_status _, resetCore_irqEn _, resetCore_opa _,
    resetCore_opb _, resetCore_opc _, resetCore_opd _, resetCore_result _, cstate_resetCore _, irq_resetCore _,
    resetCore_rspPending _, resetCore_rspOut _, resetCore_schedule _, windowRead_id _⟩

end Sys2Proof.Machine
end
